-- ==== Sys2Proof/Word.lean ====
section
/-! DEFINITION. The word types of HCE-26 (00_scope.md R7, R10, R11). -/

namespace Sys2Proof

/-- A 32-bit word: every register as the bus reads and writes it (R7; 10_state.md R20). Bit 0 is the
least significant bit (R10). -/
abbrev Word := BitVec 32

/-- One byte lane of the 32-bit data bus (20_memory.md R55). -/
abbrev Byte := BitVec 8

/-- The five bits that store one residue result (R7; 10_state.md R35 to R39, R49). -/
abbrev Res := BitVec 5

/-- `zext_32` of a stored residue: the word a bus read of a result register returns (R11). -/
def Res.word (x : Res) : Word := x.setWidth 32

end Sys2Proof
end

