-- ==== Sys2Proof/Syntax.lean ====
section
/-! DEFINITION. The command set of HCE-26: one constructor per row of spec/opcode_table.json (30_encoding.md R73). -/

namespace Sys2Proof

/-- A command. No command has an immediate, a register specifier or a mode field (30_encoding.md R72), so no
constructor has an argument: every operand is an implicit register (R79). -/
inductive Instr where
  /-- Completes with no effect (40_command_lifecycle.md R99). -/
  | nop
  /-- Determinant mod 26 (41_matrix_algebra.md R120). -/
  | det
  /-- Scalar modular inverse mod 26 (R121). -/
  | modinv
  /-- Adjugate mod 26 (R122). -/
  | adj
  /-- Matrix inverse mod 26 (R123). -/
  | inv
  /-- Invertibility check (R124). -/
  | check
  /-- Encrypt one block (42_block_codec.md R142). -/
  | enc
  /-- Decrypt one block (R143). -/
  | dec
deriving DecidableEq, Repr

end Sys2Proof
end

