-- ==== Sys2Proof/WellFormed.lean ====
section
/-! DEFINITION. Well-formed commands and legal command words (30_encoding.md R72 to R75). The checks on
host-script lines stand with the script notation in Machine/Script.lean. -/

namespace Sys2Proof

/-- A command has no operand field that could be out of range (R72), so every command is well-formed. The
ill-formed inputs of this hardware are words, not commands: `legalWord`. -/
def Instr.wellFormed (i : Instr) : Bool :=
  match i with
  | .nop | .det | .modinv | .adj | .inv | .check | .enc | .dec => true

/-- The OP values the table of R73 defines. -/
def definedOps : List Nat := [0x00, 0x01, 0x02, 0x03, 0x04, 0x05, 0x10, 0x11]

/-- A legal command word: RSV, bits [31:8], is 0 (R74) and OP, bits [7:0], is defined (R75). -/
def legalWord (w : Word) : Bool :=
  w.toNat / 256 == 0 && definedOps.contains (w.toNat % 256)

end Sys2Proof
end

