-- ==== Sys2Proof/Decode.lean ====
section
/-! DEFINITION. Decoding and encoding of the 32-bit command word CMD32 (30_encoding.md R70 to R78). -/

namespace Sys2Proof

/-- Why a command word is illegal. Both reasons end the command with ERRCODE = ILLEGAL_CMD. -/
inductive Illegal where
  /-- RSV, bits [31:8], is not 0, whatever OP is (R74). -/
  | reservedBits
  /-- RSV is 0 and OP is not in the table of R73 (R75). -/
  | undefinedOp
deriving DecidableEq, Repr

/-- Field OP, bits [7:0] (R71). -/
def wordOp (w : Word) : BitVec 8 := w.extractLsb' 0 8

/-- Field RSV, bits [31:8] (R71). -/
def wordRsv (w : Word) : BitVec 24 := w.extractLsb' 8 24

/-- The opcode map read by OP (R73, R75). -/
def decodeOp (op : BitVec 8) : Except Illegal Instr :=
  if op = 0x00 then .ok .nop
  else if op = 0x01 then .ok .det
  else if op = 0x02 then .ok .modinv
  else if op = 0x03 then .ok .adj
  else if op = 0x04 then .ok .inv
  else if op = 0x05 then .ok .check
  else if op = 0x10 then .ok .enc
  else if op = 0x11 then .ok .dec
  else .error .undefinedOp

/-- The decoder: total on all 2^32 words, RSV before OP (R78). -/
def decode (w : Word) : Except Illegal Instr :=
  if wordRsv w ≠ 0 then .error .reservedBits else decodeOp (wordOp w)

/-- The operation code of a command (R73). -/
def opcode : Instr → BitVec 8
  | .nop => 0x00
  | .det => 0x01
  | .modinv => 0x02
  | .adj => 0x03
  | .inv => 0x04
  | .check => 0x05
  | .enc => 0x10
  | .dec => 0x11

/-- The full 32-bit word of a command: RSV = 0 above OP (R71, R73). -/
def encode (i : Instr) : Word := (0#24 ++ opcode i : BitVec 32)

/-- The command word whose low `nbits` bits are those of `w`, every other bit 0. -/
def tableWord (nbits w : Nat) : Word := BitVec.ofNat 32 (w % 2 ^ nbits)

/-- The command the decoder reads from the word whose bits are `w`, numbered as spec/opcode_table.json
numbers them. A command is one word and reaches the decoder whole through CMD, so no byte order enters
(20_memory.md R55, R64). -/
def decodeTableWord (nbits w : Nat) : Option Instr :=
  match decode (tableWord nbits w) with
  | .ok i => some i
  | .error _ => none

end Sys2Proof
end

