-- ==== Sys2Proof/Config.lean ====
section
/-! DEFINITION. What is fixed for one HCE-26 part (00_scope.md section 3; 92_eei_decisions.md, open parameters). -/

namespace Sys2Proof

/-- The modulus M, fixed (R5). -/
def Config.modulus : Nat := 26

/-- NMIN, the least key dimension (R6). -/
def Config.nmin : Nat := 2

/-- NMAX, the greatest key dimension (R6). DESIGN CHOICE: the spec leaves NMAX open in 2, 3, 4 with default 4
and the model takes the default, log entry 1 (unsafe for a part built with NMAX 2 or 3). -/
def Config.nmax : Nat := 4

/-- The constant of the ID register (10_state.md R21). -/
def Config.idValue : Word := 0x48434531

/-- The size of the register window in bytes (20_memory.md R50). -/
def Config.windowSize : Nat := 512

/-- Which 512-byte slot of the host's address space the platform gives the window (20_memory.md R51): the
open parameter HCE_BASE divided by 512. No body: nothing may rest on its value (log entry 2, safe). -/
opaque Config.baseSlot : Nat

/-- HCE_BASE, the window's base address in the host's address space, a multiple of 512 (R51). -/
def Config.hceBase : Nat := Config.windowSize * Config.baseSlot

end Sys2Proof
end

