-- ==== Sys2Proof/Machine/Quad.lean ====
section
/-! DEFINITION. Arrays of four registers and 4×4 grids of them, the only register arrays (10_state.md R48). -/

namespace Sys2Proof.Machine

/-- Four like registers, indexed 0 to 3: VIN, VOUT, or one row of KEY, ADJ or INV (10_state.md R20). -/
structure Quad (α : Type) where
  e0 : α
  e1 : α
  e2 : α
  e3 : α
deriving DecidableEq, Repr

/-- Entry `k`. -/
def Quad.get {α : Type} (q : Quad α) (k : Fin 4) : α :=
  match k with
  | 0 => q.e0
  | 1 => q.e1
  | 2 => q.e2
  | 3 => q.e3

/-- Replace entry `k`. -/
def Quad.set {α : Type} (q : Quad α) (k : Fin 4) (v : α) : Quad α :=
  match k with
  | 0 => { q with e0 := v }
  | 1 => { q with e1 := v }
  | 2 => { q with e2 := v }
  | 3 => { q with e3 := v }

/-- The four entries given by a function of the index. -/
def Quad.ofFn {α : Type} (f : Fin 4 → α) : Quad α := ⟨f 0, f 1, f 2, f 3⟩

/-- A 4×4 array: row `i`, column `j` (00_scope.md R13). -/
abbrev Grid (α : Type) := Quad (Quad α)

/-- Entry (i, j). -/
def Grid.get {α : Type} (g : Grid α) (i j : Fin 4) : α := Quad.get (Quad.get g i) j

/-- Replace entry (i, j). -/
def Grid.set {α : Type} (g : Grid α) (i j : Fin 4) (v : α) : Grid α :=
  Quad.set g i (Quad.set (Quad.get g i) j v)

/-- The sixteen entries given by a function of row and column. -/
def Grid.ofFn {α : Type} (f : Fin 4 → Fin 4 → α) : Grid α := Quad.ofFn fun i => Quad.ofFn (f i)

end Sys2Proof.Machine
end

