-- ==== Sys2Proof/Machine/State.lean ====
section
/-! DEFINITION. The state of HCE-26 and of the two agents that drive it, its reset value, and the reasons a
step can stop (10_state.md; 00_scope.md R9; 70_reset_and_hazards.md R190, R191). -/

namespace Sys2Proof.Machine

/-- The outcome codes of STATUS.ERRCODE (60_exceptions.md R160). Codes 7 to 15 are never produced, so the type
leaves them out (log entry 13). -/
inductive ErrCode where
  /-- 0, NONE: success. -/
  | noError
  /-- 1: RSV ≠ 0 or an undefined OP. -/
  | illegalCmd
  /-- 2: CTRL.KROWS or CTRL.KCOLS outside [2, NMAX]. -/
  | keyDim
  /-- 3: KROWS ≠ KCOLS, both in range. -/
  | keyNonsquare
  /-- 4: the scalar (MODINV) or the determinant (INV) is no unit mod 26. -/
  | notInvertible
  /-- 5: the key's determinant is no unit mod 26 (ENC, DEC). -/
  | keyNotInvertible
  /-- 6: some VIN[k], k < n, is above 25 (ENC, DEC). -/
  | invalidInput
deriving DecidableEq, Repr

/-- The complete register state of the block, the record of 10_state.md R49. ID, PARAM, STATUS.ERR and IRQ are
functions of it and of the constants. -/
structure Regs where
  /-- CTRL[2:0] (R23). -/
  krows : BitVec 3
  /-- CTRL[6:4] (R23). -/
  kcols : BitVec 3
  /-- CTRL[8], interrupt enable (R23). -/
  ie : Bool
  /-- STATUS[0] (R27). -/
  busy : Bool
  /-- STATUS[1], the pending bit of the completion interrupt (R28). -/
  done : Bool
  /-- STATUS[3], the result of the last CHECK (R30). -/
  invertible : Bool
  /-- STATUS[4], a write was dropped (R31). -/
  ovr : Bool
  /-- STATUS[11:8] (R32). -/
  errcode : ErrCode
  /-- PENDING, the accepted command word; hidden (R41). -/
  pending : Word
  /-- DET[4:0] (R35). -/
  det : Res
  /-- SCALAR_IN (R25). -/
  scalarIn : Word
  /-- SCALAR_OUT[4:0] (R36). -/
  scalarOut : Res
  /-- KEY[i][j] (R24). -/
  key : Grid Word
  /-- ADJ[i][j][4:0] (R37). -/
  adj : Grid Res
  /-- INV[i][j][4:0] (R38). -/
  inv : Grid Res
  /-- VIN[k] (R26). -/
  vin : Quad Word
  /-- VOUT[k][4:0] (R39). -/
  vout : Quad Res
deriving DecidableEq, Repr

/-- The reset record (70_reset_and_hazards.md R191). DESIGN CHOICE: PENDING's reset value is unspecified in the
spec and is 0 here, log entry 3 (unsafe). -/
def Regs.reset : Regs where
  krows := 0
  kcols := 0
  ie := false
  busy := false
  done := false
  invertible := false
  ovr := false
  errcode := .noError
  pending := 0
  det := 0
  scalarIn := 0
  scalarOut := 0
  key := ⟨⟨0, 0, 0, 0⟩, ⟨0, 0, 0, 0⟩, ⟨0, 0, 0, 0⟩, ⟨0, 0, 0, 0⟩⟩
  adj := ⟨⟨0, 0, 0, 0⟩, ⟨0, 0, 0, 0⟩, ⟨0, 0, 0, 0⟩, ⟨0, 0, 0, 0⟩⟩
  inv := ⟨⟨0, 0, 0, 0⟩, ⟨0, 0, 0, 0⟩, ⟨0, 0, 0, 0⟩, ⟨0, 0, 0, 0⟩⟩
  vin := ⟨0, 0, 0, 0⟩
  vout := ⟨0, 0, 0, 0⟩

/-- One access of the host on the bus port: a byte offset in the window, a transfer size in bytes and, for a
write, the data (10_state.md R42; 20_memory.md R53, R54). -/
inductive Access where
  | read (off size : Nat)
  | write (off size : Nat) (v : Word)
deriving DecidableEq, Repr

/-- What the port answers an access with (20_memory.md R53, R54, R58). -/
inductive Response where
  /-- The data of a legal read. -/
  | data (v : Word)
  /-- The normal completion of a legal write, dropped or not (R58). -/
  | written
  /-- The error indication at this offset; a bus-error read returns no value (R54). -/
  | busError (off : Nat)
deriving DecidableEq, Repr

/-- One item of the host's program (30_encoding.md R80, R82). -/
inductive HostOp where
  /-- One bus access. -/
  | access (a : Access)
  /-- A read whose value the script asserts (`RD reg == value`). -/
  | expect (off : Nat) (v : Word)
  /-- `WAIT`: read STATUS until bit [0] is 0. -/
  | wait
  /-- `WAITDONE`: read STATUS until bit [1] is 1. -/
  | waitDone
deriving DecidableEq, Repr

/-- Whose turn the next event is (00_scope.md R9; 20_memory.md R60, R61), or what the RST input does
(10_state.md R42; 70_reset_and_hazards.md R190). -/
inductive Turn where
  /-- The host makes its next access. -/
  | host
  /-- The command unit makes the completion step, if it is enabled (40_command_lifecycle.md R93). -/
  | unit
  /-- RST is asserted. -/
  | assertRst
  /-- RST is released. -/
  | releaseRst
deriving DecidableEq, Repr

/-- The machine: the block's registers and input RST, and as plain data the outside that drives it: the host's
program in program order and the order in which the two agents and RST take their turns. The spec fixes no such
order (R93; 00_scope.md R8), so a claim about every schedule is a claim about every interleaving. DEDUCED: log
entry 4 (safe); the host's program, log entry 11 (safe). -/
structure State where
  /-- The block's registers (10_state.md R49). -/
  regs : Regs
  /-- The level of input RST (10_state.md R42). -/
  rst : Bool
  /-- The port's answer to the host's most recent access, none before the first. -/
  resp : Option Response
  /-- What the host has still to do, in program order (20_memory.md R60). -/
  script : List HostOp
  /-- Some assertion of the host's script has failed (30_encoding.md R80, log entry 6). -/
  failed : Bool
  /-- The turns to come, first to come first. -/
  schedule : List Turn
deriving DecidableEq, Repr

/-- The machine right after reset: the reset record, RST released, no access made and none to come. DESIGN CHOICE:
the values of the model's own fields outside `regs`, log entry 17 (unsafe). -/
def State.reset : State where
  regs := Regs.reset
  rst := false
  resp := none
  script := []
  failed := false
  schedule := []

/-- Why a step stops with a fault. -/
inductive Fault where
  /-- The host is given the next turn, with an access to make, while RST is asserted: it has no step against
  HCE-26 then (70_reset_and_hazards.md R190; the spec's treatment is `stuck`, log entry 9). Raised by `hostTurn` alone. Safe:
  the machine stops where the hardware takes no access. -/
  | accessInReset
deriving DecidableEq, Repr

/-- Why a step is refused. -/
inductive Refusal where
  /-- The command has no meaning in this model yet. Raised by an arm of `exec` alone; no arm raises it now.
  Safe: nothing can be proved of such a command. -/
  | notModelled (mnemonic : String)
deriving DecidableEq, Repr

end Sys2Proof.Machine
end

