-- ==== Sys2Proof/Machine/Flags.lean ====
section
/-! DEFINITION. The words of STATUS, CTRL and PARAM, and the interrupt output (10_state.md R22, R23, R27 to R33;
60_exceptions.md R160, R167). -/

namespace Sys2Proof.Machine

/-- The number of an outcome code (60_exceptions.md R160). -/
def ErrCode.code : ErrCode → BitVec 4
  | .noError => 0
  | .illegalCmd => 1
  | .keyDim => 2
  | .keyNonsquare => 3
  | .notInvertible => 4
  | .keyNotInvertible => 5
  | .invalidInput => 6

/-- STATUS.ERR: it always equals (ERRCODE ≠ 0) and is no storage bit (10_state.md R29). -/
def Regs.err (r : Regs) : Bool := decide (r.errcode.code ≠ 0)

/-- STATUS from its fields: BUSY[0], DONE[1], ERR[2], INVERTIBLE[3], OVR[4], ERRCODE[11:8], the rest 0
(R27 to R33). -/
def statusBits (busy done err invertible ovr : Bool) (code : BitVec 4) : Word :=
  (0#20 ++ code ++ 0#3 ++ BitVec.ofBool ovr ++ BitVec.ofBool invertible ++ BitVec.ofBool err ++ BitVec.ofBool done
    ++ BitVec.ofBool busy : BitVec 32)

/-- STATUS as the host reads it. -/
def Regs.statusWord (r : Regs) : Word := statusBits r.busy r.done r.err r.invertible r.ovr r.errcode.code

/-- CTRL from its fields: KROWS[2:0], KCOLS[6:4], IE[8], the rest 0 (R23). -/
def ctrlBits (krows kcols : BitVec 3) (ie : Bool) : Word :=
  (0#23 ++ BitVec.ofBool ie ++ 0#1 ++ kcols ++ 0#1 ++ krows : BitVec 32)

/-- CTRL as the host reads it. -/
def Regs.ctrlWord (r : Regs) : Word := ctrlBits r.krows r.kcols r.ie

/-- PARAM: NMAX[3:0], NMIN[7:4], MOD[15:8], the rest 0 (R22). -/
def paramWord : Word :=
  (0#16 ++ BitVec.ofNat 8 Config.modulus ++ BitVec.ofNat 4 Config.nmin ++ BitVec.ofNat 4 Config.nmax : BitVec 32)

/-- The fields a CTRL write stores; its reserved bits are ignored (R23, R40; 20_memory.md R57). -/
def Regs.setCtrl (r : Regs) (v : Word) : Regs :=
  { r with krows := v.extractLsb' 0 3, kcols := v.extractLsb' 4 3, ie := v.getLsbD 8 }

/-- A STATUS write clears DONE where bit [1] is 1 and OVR where bit [4] is 1, and ignores every other bit, BUSY
or not (R28, R31, R33). -/
def Regs.clearStatus (r : Regs) (v : Word) : Regs :=
  { r with done := r.done && !v.getLsbD 1, ovr := r.ovr && !v.getLsbD 4 }

/-- Output IRQ = STATUS.DONE ∧ CTRL.IE, a level (60_exceptions.md R167). -/
def Regs.irq (r : Regs) : Bool := r.done && r.ie

end Sys2Proof.Machine
end

