-- ==== Sys2Proof/Machine/Arith.lean ====
section
/-! DEFINITION. Exact integer matrix arithmetic and its reduction mod 26 (41_matrix_algebra.md R110 to R118;
00_scope.md R13, R14). -/

namespace Sys2Proof.Machine

/-- An integer matrix, entry (row, column) from 0 (00_scope.md R13); the dimension stands beside it. -/
abbrev Mat := Nat → Nat → Int

/-- Reduction mod 26 into [0, 25], never negative (R110): `Int.emod`. -/
def mod26 (x : Int) : Int := x % (Config.modulus : Int)

/-- Unit test of a residue: gcd(r, 26) = 1 (R111). -/
def isUnit (r : Int) : Bool := decide (Int.gcd r (Config.modulus : Int) = 1)

/-- Scalar inverse by trial over [1, 25]: the x with mod26(r·x) = 1 (R112). On a non-unit the spec does not define
it; every use stands behind `isUnit`, so the 0 given there is never used. DESIGN CHOICE: log entry 7 (safe). -/
def inv26 (r : Int) : Int :=
  (((List.range' 1 25).map Int.ofNat).find? fun x => decide (mod26 (r * x) = 1)).getD 0

/-- Σ_{k<n} f k, over ℤ (00_scope.md R11, R14). -/
def sumTo : Nat → (Nat → Int) → Int
  | 0, _ => 0
  | n + 1, f => sumTo n f + f n

/-- (-1)^k. -/
def sign (k : Nat) : Int := if k % 2 = 0 then 1 else -1

/-- The matrix left after deleting row `r` and column `c` (R113). -/
def minor (A : Mat) (r c : Nat) : Mat := fun i j =>
  A (i + if i ≥ r then 1 else 0) (j + if j ≥ c then 1 else 0)

/-- The exact determinant by expansion along row 0 (R114). Dimension 0 is no key dimension; it gets the empty
product 1 and no rule reaches it (log entry 7). -/
def det : Nat → Mat → Int
  | 0, _ => 1
  | 1, A => A 0 0
  | n + 2, A => sumTo (n + 2) fun j => sign j * A 0 j * det (n + 1) (minor A 0 j)

/-- Cofactor matrix, for n ≥ 2 (R115). -/
def cof (n : Nat) (A : Mat) : Mat := fun i j => sign (i + j) * det (n - 1) (minor A i j)

/-- Adjugate: the cofactor matrix, transposed (R116). -/
def adjugate (n : Nat) (A : Mat) : Mat := fun i j => cof n A j i

/-- Key invertibility: the determinant mod 26 is a unit (R118). -/
def keyInvertible (n : Nat) (A : Mat) : Bool := isUnit (mod26 (det n A))

/-- Modular inverse matrix of an invertible key (R117). -/
def invMat (n : Nat) (A : Mat) : Mat := fun i j => mod26 (inv26 (mod26 (det n A)) * adjugate n A i j)

/-- A · v with v a column vector: entry `r` is Σ_{c<n} A[r][c]·v[c], exact (00_scope.md R13). -/
def mulVec (n : Nat) (A : Mat) (v : Nat → Int) : Nat → Int := fun r => sumTo n fun c => A r c * v c

end Sys2Proof.Machine
end

