-- ==== Sys2Proof/Machine/Operands.lean ====
section
/-! DEFINITION. The implicit operands of the commands and the checks made on them (10_state.md R43 to R45;
40_command_lifecycle.md R97; 42_block_codec.md R140, R141). -/

namespace Sys2Proof.Machine

/-- `KeyShape()`: the dimension n, or KEY_DIM, or KEY_NONSQUARE, in that order (R97; 10_state.md R43). -/
def keyShape (r : Regs) : Except ErrCode Nat :=
  if r.krows.toNat < Config.nmin ∨ r.krows.toNat > Config.nmax
      ∨ r.kcols.toNat < Config.nmin ∨ r.kcols.toNat > Config.nmax then .error .keyDim
  else if r.krows ≠ r.kcols then .error .keyNonsquare
  else .ok r.krows.toNat

/-- Kn[i][j] = sext_32(KEY[i][j]), used for i, j < n only (R44). There is no entry outside 4×4; the 0 given there
is never used, since n ≤ 4 (log entry 7). -/
def keyOperand (r : Regs) : Mat := fun i j =>
  if h : i < 4 ∧ j < 4 then (Grid.get r.key ⟨i, h.1⟩ ⟨j, h.2⟩).toInt else 0

/-- v[k] = uint(VIN[k]), used for k < n only (R45). -/
def vecOperand (r : Regs) : Nat → Int := fun k =>
  if h : k < 4 then (Quad.get r.vin ⟨k, h⟩).toNat else 0

/-- a = sext_32(SCALAR_IN), the operand of MODINV (10_state.md R25). -/
def scalarOperand (r : Regs) : Int := r.scalarIn.toInt

/-- `InputCheck(n)`: every VIN[k], k < n, read unsigned, is at most 25 (R140). -/
def inputCheck (r : Regs) (n : Nat) : Except ErrCode Unit :=
  if (List.range n).all fun k => decide (vecOperand r k ≤ 25) then .ok () else .error .invalidInput

/-- `CodecKey()`: the shape, then an invertible determinant or KEY_NOT_INVERTIBLE (R141). -/
def codecKey (r : Regs) : Except ErrCode Nat :=
  match keyShape r with
  | .error e => .error e
  | .ok n => if keyInvertible n (keyOperand r) then .ok n else .error .keyNotInvertible

end Sys2Proof.Machine
end

