-- ==== Sys2Proof/Machine/Register.lean ====
section
/-! DEFINITION. The register map: names, offsets and access classes (10_state.md R20; 30_encoding.md R81). -/

namespace Sys2Proof.Machine

/-- The registers of the map (R20), by the names of R81. -/
inductive Reg where
  | id
  | param
  | ctrl
  | status
  | cmd
  | det
  | scalarIn
  | scalarOut
  | key (i j : Fin 4)
  | adj (i j : Fin 4)
  | inv (i j : Fin 4)
  | vin (k : Fin 4)
  | vout (k : Fin 4)
deriving DecidableEq, Repr

/-- The byte offset of a register in the window (R20). -/
def Reg.off : Reg → Nat
  | .id => 0x000
  | .param => 0x004
  | .ctrl => 0x008
  | .status => 0x00C
  | .cmd => 0x010
  | .det => 0x014
  | .scalarIn => 0x018
  | .scalarOut => 0x01C
  | .key i j => 0x040 + 0x10 * i.val + 4 * j.val
  | .adj i j => 0x080 + 0x10 * i.val + 4 * j.val
  | .inv i j => 0x0C0 + 0x10 * i.val + 4 * j.val
  | .vin k => 0x100 + 4 * k.val
  | .vout k => 0x110 + 4 * k.val

/-- Row index of an offset inside a 4×4 array at a 16-byte stride (R20). -/
def rowOf (d : Nat) : Fin 4 := Fin.ofNat 4 (d / 16)

/-- Column index of an offset inside a 4×4 array, or index inside a four-entry one (R20). -/
def colOf (d : Nat) : Fin 4 := Fin.ofNat 4 (d / 4)

/-- The register at a word-aligned offset, none where the map has none: the reserved ranges 0x020-0x03C and
0x120-0x1FF and everything past the window (20_memory.md R52). -/
def regAt (off : Nat) : Option Reg :=
  if off % 4 ≠ 0 then none
  else if off = 0x000 then some .id
  else if off = 0x004 then some .param
  else if off = 0x008 then some .ctrl
  else if off = 0x00C then some .status
  else if off = 0x010 then some .cmd
  else if off = 0x014 then some .det
  else if off = 0x018 then some .scalarIn
  else if off = 0x01C then some .scalarOut
  else if off < 0x040 then none
  else if off < 0x080 then some (.key (rowOf (off - 0x040)) (colOf (off - 0x040)))
  else if off < 0x0C0 then some (.adj (rowOf (off - 0x080)) (colOf (off - 0x080)))
  else if off < 0x100 then some (.inv (rowOf (off - 0x0C0)) (colOf (off - 0x0C0)))
  else if off < 0x110 then some (.vin (colOf (off - 0x100)))
  else if off < 0x120 then some (.vout (colOf (off - 0x110)))
  else none

/-- The access codes of the map's table (R20). -/
inductive RegClass where
  /-- RO: a write is ignored. -/
  | readOnly
  /-- RO + W1C: STATUS. -/
  | status
  /-- RW-B: a write while BUSY = 1 is dropped. -/
  | busyProtected
  /-- WO: CMD. -/
  | command
deriving DecidableEq, Repr

/-- The access code of each register (R20; 20_memory.md R57). -/
def Reg.accessClass : Reg → RegClass
  | .id | .param | .det | .scalarOut | .adj _ _ | .inv _ _ | .vout _ => .readOnly
  | .status => .status
  | .ctrl | .scalarIn | .key _ _ | .vin _ => .busyProtected
  | .cmd => .command

end Sys2Proof.Machine
end

