-- ==== Sys2Proof/Machine/Ops.lean ====
section
/-! DEFINITION. The shared operations on the registers: reading and writing one (20_memory.md R56, R57), accepting
a command (40_command_lifecycle.md R91), and its completion with success or with an error (R94, R95). HCE-26 takes
no traps (60_exceptions.md R169); a failed completion is what it does instead, and it is one operation here. -/

namespace Sys2Proof.Machine

/-- The value of a register; no read has a side effect (20_memory.md R56; CMD reads 0, 10_state.md R34). -/
def readReg (r : Regs) : Reg → Word
  | .id => Config.idValue
  | .param => paramWord
  | .ctrl => r.ctrlWord
  | .status => r.statusWord
  | .cmd => 0
  | .det => Res.word r.det
  | .scalarIn => r.scalarIn
  | .scalarOut => Res.word r.scalarOut
  | .key i j => Grid.get r.key i j
  | .adj i j => Res.word (Grid.get r.adj i j)
  | .inv i j => Res.word (Grid.get r.inv i j)
  | .vin k => Quad.get r.vin k
  | .vout k => Res.word (Quad.get r.vout k)

/-- `accept(w)`: PENDING takes the word, BUSY rises, DONE falls, nothing else changes (R91). -/
def Regs.accept (r : Regs) (w : Word) : Regs := { r with pending := w, busy := true, done := false }

/-- What a busy-protected register stores of a written word; the other registers store nothing here
(20_memory.md R57). -/
def storeReg (r : Regs) (g : Reg) (v : Word) : Regs :=
  match g with
  | .ctrl => r.setCtrl v
  | .scalarIn => { r with scalarIn := v }
  | .key i j => { r with key := Grid.set r.key i j v }
  | .vin k => { r with vin := Quad.set r.vin k v }
  | .id | .param | .status | .cmd | .det | .scalarOut | .adj _ _ | .inv _ _ | .vout _ => r

/-- `write_reg`: the whole effect of a legal write, by access class; while BUSY = 1 a write to a busy-protected
register or to CMD is dropped and sets OVR (20_memory.md R57, R58; R92). -/
def writeReg (r : Regs) (g : Reg) (v : Word) : Regs :=
  match g.accessClass with
  | .readOnly => r
  | .status => r.clearStatus v
  | .busyProtected => if r.busy then { r with ovr := true } else storeReg r g v
  | .command => if r.busy then { r with ovr := true } else r.accept v

/-- The register writes a successful command commits (30_encoding.md R79): none, or one result register or array. -/
inductive Result where
  | nothing
  | det (v : Res)
  | scalarOut (v : Res)
  | adj (m : Grid Res)
  | inv (m : Grid Res)
  | invertible (b : Bool)
  | vout (v : Quad Res)
deriving DecidableEq, Repr

/-- Apply a command's register writes. -/
def Regs.applyResult (r : Regs) : Result → Regs
  | .nothing => r
  | .det v => { r with det := v }
  | .scalarOut v => { r with scalarOut := v }
  | .adj m => { r with adj := m }
  | .inv m => { r with inv := m }
  | .invertible b => { r with invertible := b }
  | .vout v => { r with vout := v }

/-- What both completions do: ERRCODE is written, BUSY falls, DONE rises (R94, R95). -/
def Regs.finish (r : Regs) (e : ErrCode) : Regs := { r with errcode := e, busy := false, done := true }

/-- Successful completion: the results and ERRCODE = NONE in one step (R94). -/
def Regs.succeed (r : Regs) (w : Result) : Regs := (r.applyResult w).finish .noError

/-- Failed completion: ERRCODE only; every result register and INVERTIBLE keep their values (R95;
60_exceptions.md R164). -/
def Regs.fail (r : Regs) (e : ErrCode) : Regs := r.finish e

/-- The completion step with an outcome of `Exec` (R93 to R95). -/
def complete (s : State) (o : Except ErrCode Result) : Host.Outcome State Fault Refusal :=
  match o with
  | .ok w => .next { s with regs := s.regs.succeed w }
  | .error e => .next { s with regs := s.regs.fail e }

/-- A residue as its result register stores it: five bits (R35 to R39). -/
def toRes (x : Int) : Res := BitVec.ofInt 5 x

/-- The n entries of a vector mod 26, every entry with an index ≥ n zero (R98). -/
def resVec (n : Nat) (f : Nat → Int) : Quad Res :=
  Quad.ofFn fun k => if k.val < n then toRes (mod26 (f k.val)) else 0

/-- The n×n entries of a matrix mod 26, every entry with an index ≥ n zero (R98). -/
def resGrid (n : Nat) (A : Mat) : Grid Res :=
  Grid.ofFn fun i j => if i.val < n ∧ j.val < n then toRes (mod26 (A i.val j.val)) else 0

end Sys2Proof.Machine
end

