-- ==== Sys2Proof/Machine/Bus.lean ====
section
/-! DEFINITION. The register window as the host sees it (20_memory.md R50 to R58). -/

namespace Sys2Proof.Machine

/-- Offset of a host address in the window, none outside it (R51); what lies outside is the platform's (R52). -/
def windowOffset (addr : Nat) : Option Nat :=
  if Config.hceBase ≤ addr ∧ addr < Config.hceBase + Config.windowSize then some (addr - Config.hceBase) else none

/-- The register a legal access reaches: size 4, aligned, in the map (R53); none is a bus error (R54). -/
def target (off size : Nat) : Option Reg :=
  if size = 4 then regAt off else none

/-- One access: the port's answer and the registers after it. A bus error changes nothing and answers no
value (R54); a read changes nothing (R56); a legal write completes normally, dropped or not (R57, R58). DEDUCED: the
access faults in its response and the machine goes on, log entry 10 (safe). -/
def access (r : Regs) : Access → Response × Regs
  | .read off size =>
    match target off size with
    | none => (.busError off, r)
    | some g => (.data (readReg r g), r)
  | .write off size v =>
    match target off size with
    | none => (.busError off, r)
    | some g => (.written, writeReg r g v)

/-- The byte at a byte offset of the window: lane b carries bits [8b+7 : 8b] and sits at off + b, so the order is
little-endian (R55). No access moves a byte; this is the byte view of the registers. -/
def byteAt (r : Regs) (a : Nat) : Option Byte :=
  match regAt (a - a % 4) with
  | none => none
  | some g => some ((readReg r g).extractLsb' (8 * (a % 4)) 8)

end Sys2Proof.Machine
end

