-- ==== Sys2Proof/Machine/Algebra.lean ====
section
/-! DEFINITION. The modular matrix inverter: DET, MODINV, ADJ, INV, CHECK (41_matrix_algebra.md R120 to R124). -/

namespace Sys2Proof.Machine

/-- DET's outcome: det(K) mod 26; a singular key is no error (R120). -/
def detOutcome (r : Regs) : Except ErrCode Result :=
  match keyShape r with
  | .error e => .error e
  | .ok n => .ok (.det (toRes (mod26 (det n (keyOperand r)))))

/-- DET (R120). -/
def execDet (s : State) : Host.Outcome State Fault Refusal := complete s (detOutcome s.regs)

/-- MODINV's outcome: the inverse of SCALAR_IN mod 26, or NOT_INVERTIBLE; CTRL is not read (R121). -/
def modinvOutcome (r : Regs) : Except ErrCode Result :=
  if isUnit (mod26 (scalarOperand r)) then .ok (.scalarOut (toRes (inv26 (mod26 (scalarOperand r)))))
  else .error .notInvertible

/-- MODINV (R121). -/
def execModinv (s : State) : Host.Outcome State Fault Refusal := complete s (modinvOutcome s.regs)

/-- ADJ's outcome: adj(K) mod 26, for a singular key too (R122). -/
def adjOutcome (r : Regs) : Except ErrCode Result :=
  match keyShape r with
  | .error e => .error e
  | .ok n => .ok (.adj (resGrid n (adjugate n (keyOperand r))))

/-- ADJ (R122). -/
def execAdj (s : State) : Host.Outcome State Fault Refusal := complete s (adjOutcome s.regs)

/-- INV's outcome: K⁻¹ mod 26, or NOT_INVERTIBLE where det(K) is no unit; DET and ADJ are not written (R123). -/
def invOutcome (r : Regs) : Except ErrCode Result :=
  match keyShape r with
  | .error e => .error e
  | .ok n =>
    if isUnit (mod26 (det n (keyOperand r))) then .ok (.inv (resGrid n (invMat n (keyOperand r))))
    else .error .notInvertible

/-- INV (R123). -/
def execInv (s : State) : Host.Outcome State Fault Refusal := complete s (invOutcome s.regs)

/-- CHECK's outcome: whether the shape is square and in range and the key invertible; it never fails (R124). -/
def checkOutcome (r : Regs) : Except ErrCode Result :=
  if Config.nmin ≤ r.krows.toNat ∧ r.krows.toNat ≤ Config.nmax ∧ r.krows = r.kcols then
    .ok (.invertible (keyInvertible r.krows.toNat (keyOperand r)))
  else .ok (.invertible false)

/-- CHECK (R124). -/
def execCheck (s : State) : Host.Outcome State Fault Refusal := complete s (checkOutcome s.regs)

end Sys2Proof.Machine
end

