-- ==== Sys2Proof/Machine/Codec.lean ====
section
/-! DEFINITION. The modular matrix-vector multiplier: ENC and DEC (42_block_codec.md R140 to R143). -/

namespace Sys2Proof.Machine

/-- The transform ENC and DEC share: the codec's checks in order, then B · v mod 26 for the matrix B made of the
key of dimension n (R140 to R143). -/
def codecOutcome (r : Regs) (matrixOf : Nat → Mat → Mat) : Except ErrCode Result :=
  match codecKey r with
  | .error e => .error e
  | .ok n =>
    match inputCheck r n with
    | .error e => .error e
    | .ok () => .ok (.vout (resVec n (mulVec n (matrixOf n (keyOperand r)) (vecOperand r))))

/-- ENC's outcome: K · VIN mod 26 (R142). -/
def encOutcome (r : Regs) : Except ErrCode Result := codecOutcome r fun _ A => A

/-- ENC (R142). -/
def execEnc (s : State) : Host.Outcome State Fault Refusal := complete s (encOutcome s.regs)

/-- DEC's outcome: invMat(K) · VIN mod 26, the inverse computed from KEY itself; INV is not read (R143). -/
def decOutcome (r : Regs) : Except ErrCode Result := codecOutcome r invMat

/-- DEC (R143). -/
def execDec (s : State) : Host.Outcome State Fault Refusal := complete s (decOutcome s.regs)

end Sys2Proof.Machine
end

