-- ==== Sys2Proof/Machine/Lifecycle.lean ====
section
/-! DEFINITION. NOP and the completion of an illegal word (40_command_lifecycle.md R99, R100; 30_encoding.md R74,
R75). -/

namespace Sys2Proof.Machine

/-- NOP: completes with no other effect; it cannot fail (R99). -/
def execNop (s : State) : Host.Outcome State Fault Refusal := complete s (.ok .nothing)

/-- The completion of an illegal word: ILLEGAL_CMD and no other effect (30_encoding.md R74, R75). -/
def completeIllegal (s : State) : Host.Outcome State Fault Refusal := complete s (.error .illegalCmd)

end Sys2Proof.Machine
end

