-- ==== Sys2Proof/Machine/Dispatch.lean ====
section
/-! DEFINITION. The completion of each command: `Exec` of 40_command_lifecycle.md R100, committed by R94 or R95. -/

namespace Sys2Proof.Machine

/-- The completion step of a decoded command (R93, R100). That BUSY = 1 enables it is checked by `unitTurn`, which
alone calls it (log entry 16). -/
def exec (i : Instr) (s : State) : Host.Outcome State Fault Refusal :=
  match i with
  | .nop => Sys2Proof.Machine.execNop s
  | .det => Sys2Proof.Machine.execDet s
  | .modinv => Sys2Proof.Machine.execModinv s
  | .adj => Sys2Proof.Machine.execAdj s
  | .inv => Sys2Proof.Machine.execInv s
  | .check => Sys2Proof.Machine.execCheck s
  | .enc => Sys2Proof.Machine.execEnc s
  | .dec => Sys2Proof.Machine.execDec s

end Sys2Proof.Machine
end

