-- ==== Sys2Proof/Machine/Agents.lean ====
section
/-! DEFINITION. The turns of the two agents and of input RST (00_scope.md R9; 20_memory.md R60, R61;
40_command_lifecycle.md R93; 70_reset_and_hazards.md R190). -/

namespace Sys2Proof.Machine

/-- Every register at its reset value: what RST does while it is asserted and in the step that releases it; a
command in flight is abandoned (R190). The host's own data stay (log entry 14). -/
def holdReset (s : State) : State := { s with regs := Regs.reset }

/-- The STATUS poll of `WAIT` and `WAITDONE`: one read; the host goes back to it until `isOver` holds of the value
read (30_encoding.md R82). -/
def pollStatus (isOver : Word → Bool) (op : HostOp) (rest : List HostOp) (s : State) : State :=
  let v := readReg s.regs .status
  { s with resp := some (.data v), script := if isOver v then rest else op :: rest }

/-- One turn of the host at the item `op` of its program (30_encoding.md R80, R82). An asserted read that answers
anything else marks the run and stops nothing. DESIGN CHOICE: log entry 6 (safe). -/
def runHostOp (op : HostOp) (rest : List HostOp) (s : State) : State :=
  match op with
  | .access a =>
    { s with regs := (access s.regs a).2, resp := some (access s.regs a).1, script := rest }
  | .expect off v =>
    { s with resp := some (access s.regs (.read off 4)).1, script := rest,
             failed := s.failed || decide ((access s.regs (.read off 4)).1 ≠ .data v) }
  | .wait => pollStatus (fun v => !v.getLsbD 0) op rest s
  | .waitDone => pollStatus (fun v => v.getLsbD 1) op rest s

/-- The host's turn: its next access, or nothing where its program has ended. While RST is asserted the host has
no step (R190). -/
def hostTurn (s : State) : Host.Outcome State Fault Refusal :=
  match s.script with
  | [] => .next (if s.rst then holdReset s else s)
  | op :: rest => if s.rst then .fault .accessInReset else .next (runHostOp op rest s)

/-- The command unit's turn: the completion step of PENDING where BUSY = 1 (R93, R100); otherwise it is not
enabled and nothing happens. -/
def unitTurn (s : State) : Host.Outcome State Fault Refusal :=
  if s.rst then .next (holdReset s)
  else if s.regs.busy then
    match decode s.regs.pending with
    | .ok i => exec i s
    | .error _ => completeIllegal s
  else .next s

/-- One event of the total order (20_memory.md R60). DEDUCED: RST is a level with its two edges as turns, log
entry 9 (safe); an agent with nothing to do leaves the state as it is, log entry 12 (safe). -/
def takeTurn (t : Turn) (s : State) : Host.Outcome State Fault Refusal :=
  match t with
  | .host => hostTurn s
  | .unit => unitTurn s
  | .assertRst => .next { holdReset s with rst := true }
  | .releaseRst => .next (if s.rst then { holdReset s with rst := false } else s)

/-- The event after the last scheduled one: an enabled completion step, which nothing can keep waiting for ever
(40_command_lifecycle.md R102); else the host's next access. DESIGN CHOICE: the spec fixes no order, log entry 5 (unsafe for a claim about states
with an empty schedule alone). -/
def unscheduledTurn (s : State) : Turn := if s.regs.busy then .unit else .host

/-- One event: the next turn of the schedule, or the one `unscheduledTurn` gives where it has run out. -/
def advance (s : State) : Host.Outcome State Fault Refusal :=
  match s.schedule with
  | [] => takeTurn (unscheduledTurn s) s
  | t :: rest => takeTurn t { s with schedule := rest }

/-- The command `w` accepted by the block, out of reset, and the command unit's turn next. -/
def withCommand (s : State) (w : Word) : State :=
  { s with regs := s.regs.accept w, rst := false, schedule := .unit :: s.schedule }

end Sys2Proof.Machine
end

