-- ==== Sys2Proof/Machine/Step.lean ====
section
/-! DEFINITION. One step of the machine: one event of the total order of host accesses, completion steps and RST
(20_memory.md R60, R61). -/

namespace Sys2Proof.Machine

/-- One event. HCE-26 has no program counter and no fetch (10_state.md R47): a command runs when the command unit's
turn comes and PENDING holds it. -/
def step (s : State) : Host.Outcome State Fault Refusal := advance s

/-- The state in which the very next step runs the command whose word has these bits: the word is accepted, as by
the host's write to CMD (40_command_lifecycle.md R91), and the command unit has the next turn. DESIGN CHOICE:
log entry 8 (safe). -/
def State.withFetchWord (s : State) (nbits w : Nat) : State := withCommand s (tableWord nbits w)

end Sys2Proof.Machine
end

