-- ==== Sys2Proof/Machine/Script.lean ====
section
/-! DEFINITION. The host-script notation: its lines, their checks, their exact expansions and their encoded form
(30_encoding.md R80 to R83). DESIGN CHOICE: the checks on lines and the encoded form of a poll, log entry 18 (safe). -/

namespace Sys2Proof.Machine

/-- A line of a host script, the pseudo-instructions among them (R80, R82). Values are the written constants. -/
inductive ScriptLine where
  /-- `WR reg, value` -/
  | wr (g : Reg) (v : Int)
  /-- `RD reg` -/
  | rd (g : Reg)
  /-- `RD reg == value` -/
  | rdEq (g : Reg) (v : Int)
  /-- `CMD mnemonic` -/
  | cmd (i : Instr)
  /-- `CMD value`: any word, an illegal one too. -/
  | cmdWord (v : Int)
  | wait
  | waitDone
  | clrDone
  | clrOvr
  /-- `LDKEY n, a00, a01, …`: the entries row by row. -/
  | ldKey (n : Nat) (entries : List Int)
  /-- `LDVEC v0, …, v(n-1)` -/
  | ldVec (entries : List Int)
deriving DecidableEq, Repr

/-- A constant's 32-bit word: a negative decimal constant -d stands for 2^32 - d (R80). -/
def valueWord (v : Int) : Word := BitVec.ofInt 32 v

/-- A constant that a 32-bit word holds, read signed or unsigned (R80). -/
def valueFits (v : Int) : Bool := decide (-(2 ^ 31) ≤ v ∧ v < 2 ^ 32)

/-- The checks on a line: constants fit, LDKEY has n·n entries for 1 ≤ n ≤ 4 (a register name has digits 0 to 3,
R81), LDVEC has 1 to 4 (R82). -/
def ScriptLine.wellFormed : ScriptLine → Bool
  | .wr _ v | .rdEq _ v | .cmdWord v => valueFits v
  | .rd _ | .cmd _ | .wait | .waitDone | .clrDone | .clrOvr => true
  | .ldKey n es => decide (1 ≤ n ∧ n ≤ 4 ∧ es.length = n * n) && es.all valueFits
  | .ldVec es => decide (1 ≤ es.length ∧ es.length ≤ 4) && es.all valueFits

/-- `MemWrite(off(reg), 4, v)` (R80). -/
def writeOp (g : Reg) (v : Word) : HostOp := .access (.write g.off 4 v)

/-- The KEY writes of LDKEY: entry number `k` goes to KEY[k / n][k % n] (R82). -/
def keyOps (n : Nat) : Nat → List Int → List HostOp
  | _, [] => []
  | k, v :: vs => writeOp (.key (Fin.ofNat 4 (k / n)) (Fin.ofNat 4 (k % n))) (valueWord v) :: keyOps n (k + 1) vs

/-- The VIN writes of LDVEC: entry number `k` goes to VIN[k] (R82). -/
def vecOps : Nat → List Int → List HostOp
  | _, [] => []
  | k, v :: vs => writeOp (.vin (Fin.ofNat 4 k)) (valueWord v) :: vecOps (k + 1) vs

/-- The expansion of a line into what the host does (R80, R82). -/
def ScriptLine.expand : ScriptLine → List HostOp
  | .wr g v => [writeOp g (valueWord v)]
  | .rd g => [.access (.read g.off 4)]
  | .rdEq g v => [.expect g.off (valueWord v)]
  | .cmd i => [writeOp .cmd (encode i)]
  | .cmdWord v => [writeOp .cmd (valueWord v)]
  | .wait => [.wait]
  | .waitDone => [.waitDone]
  | .clrDone => [writeOp .status 0x2]
  | .clrOvr => [writeOp .status 0x10]
  | .ldKey n es => writeOp .ctrl (BitVec.ofNat 32 (n + 16 * n)) :: keyOps n 0 es
  | .ldVec es => vecOps 0 es

/-- A script's expansion: the lines in order (R80). -/
def expandScript (ls : List ScriptLine) : List HostOp := ls.flatMap ScriptLine.expand

/-- The encoded form of one bus access of a line (R83): the direction, the offset, and the data written or, where
the script asserts one, the value expected. -/
inductive Transaction where
  | write (off : Nat) (data : Word)
  | read (off : Nat) (expected : Option Word)
deriving DecidableEq, Repr

/-- The encoded form of an item of the host's program (R83). A WAIT or WAITDONE is encoded as one poll of STATUS;
how often it repeats depends on the run. An access that is no 32-bit one has no encoded form. -/
def HostOp.encoded : HostOp → Option Transaction
  | .access (.write off 4 v) => some (.write off v)
  | .access (.read off 4) => some (.read off none)
  | .access _ => none
  | .expect off v => some (.read off (some v))
  | .wait | .waitDone => some (.read 0x00C none)

end Sys2Proof.Machine
end

