-- ==== Sys2Proof/Safety.lean ====
section
/-! DEFINITION. What every run keeps, in the terms the claims use. -/

namespace Sys2Proof.Machine

/-- A result register holds a residue in [0, 25] (10_state.md section 6; 00_scope.md R7). -/
abbrev isResidue (x : Res) : Prop := x.toNat ≤ 25

/-- SCALAR_OUT is 0 until a MODINV has succeeded and a unit in [1, 25] after (10_state.md R36). -/
abbrev isScalarResult (x : Res) : Prop := x = 0 ∨ (x.toNat ≤ 25 ∧ isUnit (x.toNat : Int) = true)

/-- The invariant of the registers: results are residues, SCALAR_OUT is 0 or a unit, and DONE is 0 while a command
is in flight (10_state.md R35 to R39; 40_command_lifecycle.md R91). -/
structure Regs.Inv (r : Regs) : Prop where
  det : isResidue r.det
  scalarOut : isScalarResult r.scalarOut
  adj : ∀ i j, isResidue (Grid.get r.adj i j)
  inv : ∀ i j, isResidue (Grid.get r.inv i j)
  vout : ∀ k, isResidue (Quad.get r.vout k)
  idleDone : r.busy = true → r.done = false

/-- The invariant of the machine: the registers', and every register at its reset value while RST is asserted
(70_reset_and_hazards.md R190). -/
structure State.Inv (s : State) : Prop where
  regs : s.regs.Inv
  held : s.rst = true → s.regs = Regs.reset

/-- The registers no command and no completion writes: CTRL, KEY, SCALAR_IN and VIN (30_encoding.md R79). -/
structure sameOperands (r q : Regs) : Prop where
  krows : r.krows = q.krows
  kcols : r.kcols = q.kcols
  ie : r.ie = q.ie
  scalarIn : r.scalarIn = q.scalarIn
  key : r.key = q.key
  vin : r.vin = q.vin

/-- The result registers and INVERTIBLE (40_command_lifecycle.md R95). -/
structure sameResults (r q : Regs) : Prop where
  det : r.det = q.det
  scalarOut : r.scalarOut = q.scalarOut
  adj : r.adj = q.adj
  inv : r.inv = q.inv
  vout : r.vout = q.vout
  invertible : r.invertible = q.invertible

end Sys2Proof.Machine
end

