-- ==== Sys2Proof/Certificates/Slice0/Obligations.lean ====
section
/-! DEFINITION. The statements for the provers. The vocabulary they share comes first. -/

namespace Sys2Proof.Claims

open Sys2Proof.Machine

/-- The OP value of each command, as the table of 30_encoding.md R73 gives it. -/
def tableCode : Instr → Nat
  | .nop => 0x00
  | .det => 0x01
  | .modinv => 0x02
  | .adj => 0x03
  | .inv => 0x04
  | .check => 0x05
  | .enc => 0x10
  | .dec => 0x11

/-- A word that is no command of the table (30_encoding.md R74, R75). -/
def illegal (w : Word) : Prop := ∀ i, w.toNat ≠ tableCode i

/-- The key has dimension n: KROWS = KCOLS = n in [2, 4] (40_command_lifecycle.md R97; 10_state.md R43). -/
def shape (r : Regs) (n : Nat) : Prop := 2 ≤ n ∧ n ≤ 4 ∧ r.krows.toNat = n ∧ r.kcols.toNat = n

/-- KROWS or KCOLS is outside [2, 4] (R97). -/
def dimBad (r : Regs) : Prop := ¬(2 ≤ r.krows.toNat ∧ r.krows.toNat ≤ 4 ∧ 2 ≤ r.kcols.toNat ∧ r.kcols.toNat ≤ 4)

/-- KROWS and KCOLS are in range and differ (R97). -/
def nonsquare (r : Regs) : Prop := ¬dimBad r ∧ r.krows ≠ r.kcols

/-- The key as 10_state.md R44 reads it, KEY[i][j] sign-extended. KEY has no entry outside 4×4; a dimension is at most 4,
so the 0 there enters no statement. -/
def signedKey (r : Regs) : Mat := fun i j =>
  if h : i < 4 ∧ j < 4 then (Grid.get r.key ⟨i, h.1⟩ ⟨j, h.2⟩).toInt else 0

/-- The block as 10_state.md R45 reads it, VIN[k] unsigned; the 0 above index 3 enters no statement either. -/
def unsignedVin (r : Regs) : Nat → Int := fun k =>
  if h : k < 4 then ((Quad.get r.vin ⟨k, h⟩).toNat : Int) else 0

/-- The determinant of the n×n key is coprime with 26 (41_matrix_algebra.md R118). -/
def unitDet (r : Regs) (n : Nat) : Prop := Int.gcd (det n (signedKey r)) 26 = 1

/-- Every operand entry of VIN is a letter index (42_block_codec.md R140). -/
def lettersOk (r : Regs) (n : Nat) : Prop := ∀ k : Fin 4, k.val < n → (Quad.get r.vin k).toNat ≤ 25

/-- The registers after a success that wrote the results of `r` (40_command_lifecycle.md R94). -/
def finished (r : Regs) : Regs := { r with errcode := .noError, busy := false, done := true }

/-- The command ends with error `e`: ERRCODE, BUSY and DONE are written and nothing else changes (R95). -/
def failsWith (i : Instr) (s : State) (e : ErrCode) : Prop :=
  exec i s = .next { s with regs := { s.regs with errcode := e, busy := false, done := true } }

/-- The key-shape errors of R97, for a command that makes those checks. -/
def shapeErrors (i : Instr) (s : State) : Prop :=
  (dimBad s.regs → failsWith i s .keyDim) ∧ (nonsquare s.regs → failsWith i s .keyNonsquare)

/-- The errors of the codec commands in their order (42_block_codec.md R140, R141). -/
def codecErrors (i : Instr) (s : State) : Prop :=
  shapeErrors i s ∧
  ∀ n, shape s.regs n →
    (¬unitDet s.regs n → failsWith i s .keyNotInvertible) ∧
    (unitDet s.regs n → ¬lettersOk s.regs n → failsWith i s .invalidInput)

/-- Entry (i, j) of a result array holds `f i j` inside n×n and 0 outside (40_command_lifecycle.md R98). -/
def holdsGrid (n : Nat) (G : Grid Res) (f : Nat → Nat → Int) : Prop :=
  ∀ i j : Fin 4, ((Grid.get G i j).toNat : Int) = if i.val < n ∧ j.val < n then f i.val j.val else 0

/-- Entry k of VOUT holds `f k` for k < n and 0 above (R98). -/
def holdsVec (n : Nat) (q : Quad Res) (f : Nat → Int) : Prop :=
  ∀ k : Fin 4, ((Quad.get q k).toNat : Int) = if k.val < n then f k.val else 0

/-- The bytes of the window that a command's success may change, STATUS apart (30_encoding.md R79; 10_state.md R20). -/
def resultByte : Instr → Nat → Prop
  | .nop, _ => False
  | .det, a => 0x014 ≤ a ∧ a < 0x018
  | .modinv, a => 0x01C ≤ a ∧ a < 0x020
  | .adj, a => 0x080 ≤ a ∧ a < 0x0C0
  | .inv, a => 0x0C0 ≤ a ∧ a < 0x100
  | .check, _ => False
  | .enc, a => 0x110 ≤ a ∧ a < 0x120
  | .dec, a => 0x110 ≤ a ∧ a < 0x120

/-- The same shape and the same n×n key entries, n = KROWS (30_encoding.md R79). -/
def sameKey (r q : Regs) : Prop :=
  r.krows = q.krows ∧ r.kcols = q.kcols ∧
  ∀ i j : Fin 4, i.val < r.krows.toNat → j.val < r.krows.toNat → Grid.get r.key i j = Grid.get q.key i j

/-- The same values in every register a command reads (R79). -/
def sameReads : Instr → Regs → Regs → Prop
  | .nop, _, _ => True
  | .modinv, r, q => r.scalarIn = q.scalarIn
  | .det, r, q | .adj, r, q | .inv, r, q | .check, r, q => sameKey r q
  | .enc, r, q | .dec, r, q =>
    sameKey r q ∧ ∀ k : Fin 4, k.val < r.krows.toNat → Quad.get r.vin k = Quad.get q.vin k

/-- The same values in every register a command writes on success (R79). -/
def sameWrites : Instr → Regs → Regs → Prop
  | .nop, _, _ => True
  | .det, r, q => r.det = q.det
  | .modinv, r, q => r.scalarOut = q.scalarOut
  | .adj, r, q => r.adj = q.adj
  | .inv, r, q => r.inv = q.inv
  | .check, r, q => r.invertible = q.invertible
  | .enc, r, q | .dec, r, q => r.vout = q.vout

/-- The codes each command can end with (60_exceptions.md R162). -/
def endsWith : Instr → List ErrCode
  | .nop => [.noError]
  | .det => [.noError, .keyDim, .keyNonsquare]
  | .modinv => [.noError, .notInvertible]
  | .adj => [.noError, .keyDim, .keyNonsquare]
  | .inv => [.noError, .keyDim, .keyNonsquare, .notInvertible]
  | .check => [.noError]
  | .enc => [.noError, .keyDim, .keyNonsquare, .keyNotInvertible, .invalidInput]
  | .dec => [.noError, .keyDim, .keyNonsquare, .keyNotInvertible, .invalidInput]

/-- The number of each outcome code (60_exceptions.md R160). -/
def errNumber : ErrCode → BitVec 4
  | .noError => 0
  | .illegalCmd => 1
  | .keyDim => 2
  | .keyNonsquare => 3
  | .notInvertible => 4
  | .keyNotInvertible => 5
  | .invalidInput => 6

/-- The word of a result register: the residue in bits [4:0], bits [31:5] zero (10_state.md R35 to R39). -/
def resultWord (x : Res) : Word := (0#27 ++ x : BitVec 32)

/-- The offsets of the map that are no register's (20_memory.md R52, R54). -/
def reserved (off : Nat) : Prop := (0x020 ≤ off ∧ off < 0x040) ∨ (0x120 ≤ off ∧ off < 0x200)

/-- The host copies VOUT[0..n-1] into VIN[0..n-1] and leaves the rest of VIN (70_reset_and_hazards.md R199). -/
def chained (n : Nat) (s : State) : State :=
  { s with regs := { s.regs with
      vin := Quad.ofFn fun k => if k.val < n then Res.word (Quad.get s.regs.vout k) else Quad.get s.regs.vin k } }

/-- The next event is a completion: a command is in flight out of reset, and the schedule gives the command unit the
turn. -/
def unitScheduled (s : State) (rest : List Turn) : Prop :=
  s.rst = false ∧ s.regs.busy = true ∧ s.schedule = .unit :: rest

/-- The next event is a completion: a command is in flight out of reset, and the command unit has the turn, scheduled or
by the model's choice for an empty schedule (log entry 5). -/
def completesNext (s : State) (rest : List Turn) : Prop :=
  s.rst = false ∧ s.regs.busy = true ∧ (s.schedule = .unit :: rest ∨ s.schedule = [] ∧ rest = [])

/-- The next event is the host's item `op`, out of reset. With an empty schedule it is so only while no command is in
flight: the host's step is then the only one enabled (40_command_lifecycle.md R93). -/
def hostNext (s : State) (op : HostOp) : Prop :=
  s.rst = false ∧ s.script.head? = some op ∧
  (s.schedule.head? = some .host ∨ s.schedule = [] ∧ s.regs.busy = false)

/-- The next event puts the registers at their reset values: RST is asserted, or is released, or is held. -/
def resetNext (s : State) : Prop := s.schedule.head? = some .assertRst ∨ s.rst = true

end Sys2Proof.Claims

open Sys2Proof Sys2Proof.Machine Sys2Proof.Claims

/-! ## Encoding -/

/-- R73: each word of the table decodes to its command. -/
def Obligations.TableWordsDecodeToTheirCommands : Prop :=
  decode 0x00000000 = .ok .nop ∧ decode 0x00000001 = .ok .det ∧ decode 0x00000002 = .ok .modinv ∧
  decode 0x00000003 = .ok .adj ∧ decode 0x00000004 = .ok .inv ∧ decode 0x00000005 = .ok .check ∧
  decode 0x00000010 = .ok .enc ∧ decode 0x00000011 = .ok .dec

/-- R78: over all 2^32 words, the decoder reads a command exactly from that command's word of the table; every other
word is illegal. -/
def Obligations.DecoderAcceptsExactlyTheTableWords : Prop :=
  ∀ (w : Word) (i : Instr), decode w = .ok i ↔ w.toNat = tableCode i

/-- Decode and encode agree in both directions, and encoding gives a legal word. -/
def Obligations.DecodeAndEncodeAgree : Prop :=
  (∀ i : Instr, i.wellFormed = true ∧ decode (encode i) = .ok i) ∧
  (∀ (w : Word) (i : Instr), decode w = .ok i → w = encode i) ∧
  (∀ w : Word, legalWord w = true ↔ ∃ i, w = encode i)

/-- R74, R75: the name of the rejection: nonzero RSV whatever OP is, else an undefined OP. -/
def Obligations.IllegalWordsAreRejectedByName : Prop :=
  ∀ w : Word,
    (256 ≤ w.toNat → decode w = .error .reservedBits) ∧
    (w.toNat < 256 → illegal w → decode w = .error .undefinedOp)

/-! ## The step and the lifecycle -/

/-- R93, R100: a step whose turn is the command unit's, with a command in flight out of reset, is exec of the command
PENDING decodes to; what the step adds is that the turn is taken from the schedule. -/
def Obligations.StepRunsTheDecodedCommand : Prop :=
  ∀ (s : State) (rest : List Turn) (i : Instr),
    completesNext s rest → decode s.regs.pending = .ok i → step s = exec i { s with schedule := rest }

/-- The word given to withFetchWord is what the very next step runs, for every word of the table. -/
def Obligations.FetchedWordRunsNext : Prop :=
  ∀ (s : State) (i : Instr),
    step (s.withFetchWord 32 (tableCode i)) = exec i { s with regs := s.regs.accept (encode i), rst := false }

/-- R74, R75: an illegal word is accepted like any command and completes with ILLEGAL_CMD and no other effect. -/
def Obligations.IllegalWordsAreAcceptedAndFail : Prop :=
  (∀ (r : Regs) (w : Word), illegal w → r.busy = false →
    access r (.write 0x010 4 w) = (.written, { r with pending := w, busy := true, done := false })) ∧
  (∀ (s : State) (rest : List Turn), unitScheduled s rest → illegal s.regs.pending →
    step s = .next { s with
      schedule := rest, regs := { s.regs with errcode := .illegalCmd, busy := false, done := true } })

/-- R91: what accepting a word does. -/
def Obligations.IdleCommandWriteIsAccepted : Prop :=
  ∀ (s : State) (rest : List HostOp) (w : Word),
    hostNext s (.access (.write 0x010 4 w)) → s.script.tail = rest → s.regs.busy = false →
    step s = .next { s with
      schedule := s.schedule.tail, script := rest, resp := some .written,
      regs := { s.regs with pending := w, busy := true, done := false } }

/-- R58, R92: while a command is in flight, a write to a busy-protected register or to CMD is dropped and sets OVR. -/
def Obligations.WritesWhileBusyAreDropped : Prop :=
  ∀ (r : Regs) (v : Word), r.busy = true →
    (∀ i j : Fin 4, access r (.write (0x040 + 0x10 * i.val + 4 * j.val) 4 v) = (.written, { r with ovr := true })) ∧
    (∀ k : Fin 4, access r (.write (0x100 + 4 * k.val) 4 v) = (.written, { r with ovr := true })) ∧
    access r (.write 0x008 4 v) = (.written, { r with ovr := true }) ∧
    access r (.write 0x018 4 v) = (.written, { r with ovr := true }) ∧
    access r (.write 0x010 4 v) = (.written, { r with ovr := true })

/-- R95, for every command: it completes in a next state with BUSY = 0 and DONE = 1, and where the outcome is an error
only ERRCODE, BUSY and DONE were written. -/
def Obligations.FailedCompletionWritesOnlyTheOutcome : Prop :=
  ∀ (i : Instr) (s : State), ∃ t, exec i s = .next t ∧ t.regs.busy = false ∧ t.regs.done = true ∧
    (t.regs.errcode ≠ .noError →
      t = { s with regs := { s.regs with errcode := t.regs.errcode, busy := false, done := true } })

/-- R162: which command can end with which code, both ways, the row of illegal words too. -/
def Obligations.CommandsEndWithTheListedCodes : Prop :=
  (∀ (i : Instr) (e : ErrCode), e ∈ endsWith i ↔ ∃ s t, exec i s = .next t ∧ t.regs.errcode = e) ∧
  (∀ (s t : State) (rest : List Turn), unitScheduled s rest → illegal s.regs.pending → step s = .next t →
    t.regs.errcode = .illegalCmd)

/-- R101: the outcome depends only on the registers the command reads (R79): equal values give the same error code and,
on success, the same results; the flags and every other register do not enter. -/
def Obligations.OutcomeDependsOnlyOnTheOperandsRead : Prop :=
  ∀ (i : Instr) (s s' : State), sameReads i s.regs s'.regs →
    ∃ t t', exec i s = .next t ∧ exec i s' = .next t' ∧ t.regs.errcode = t'.regs.errcode ∧
      (t.regs.errcode = .noError → sameWrites i t.regs t'.regs)

/-- The frame of every command, through the byte view of the window: outside its result registers and STATUS every byte
reads as before; OVR and PENDING are unchanged, INVERTIBLE too but for CHECK; nothing outside the registers changes. -/
def Obligations.CommandsChangeOnlyTheirResults : Prop :=
  ∀ (i : Instr) (s t : State), exec i s = .next t →
    (∀ a : Nat, ¬resultByte i a → ¬(0x00C ≤ a ∧ a < 0x010) → byteAt t.regs a = byteAt s.regs a) ∧
    t.regs.ovr = s.regs.ovr ∧ t.regs.pending = s.regs.pending ∧
    (i ≠ .check → t.regs.invertible = s.regs.invertible) ∧
    t.rst = s.rst ∧ t.resp = s.resp ∧ t.script = s.script ∧ t.failed = s.failed ∧ t.schedule = s.schedule

/-! ## The commands -/

/-- R99. -/
def Obligations.NopOnlyCompletes : Prop :=
  decode 0x00000000 = .ok .nop ∧
  ∀ s : State, exec .nop s = .next { s with regs := { s.regs with errcode := .noError, busy := false, done := true } }

/-- R120. -/
def Obligations.DetWritesTheDeterminantMod26 : Prop :=
  decode 0x00000001 = .ok .det ∧
  ∀ s : State,
    (∀ n, shape s.regs n → ∃ d : Res, (d.toNat : Int) = mod26 (det n (signedKey s.regs)) ∧
      exec .det s = .next { s with regs := finished { s.regs with det := d } }) ∧
    shapeErrors .det s

/-- R121: the result is the one x in [1, 25] with a·x ≡ 1 (mod 26), where a is coprime with 26. -/
def Obligations.ModinvWritesTheScalarInverse : Prop :=
  decode 0x00000002 = .ok .modinv ∧
  ∀ s : State,
    (Int.gcd s.regs.scalarIn.toInt 26 = 1 → ∃ x : Res, 1 ≤ x.toNat ∧ x.toNat ≤ 25 ∧
      (s.regs.scalarIn.toInt * (x.toNat : Int)) % 26 = 1 ∧
      (∀ y : Nat, 1 ≤ y → y ≤ 25 → (s.regs.scalarIn.toInt * (y : Int)) % 26 = 1 → y = x.toNat) ∧
      exec .modinv s = .next { s with regs := finished { s.regs with scalarOut := x } }) ∧
    (Int.gcd s.regs.scalarIn.toInt 26 ≠ 1 → failsWith .modinv s .notInvertible)

/-- R122. -/
def Obligations.AdjWritesTheAdjugateMod26 : Prop :=
  decode 0x00000003 = .ok .adj ∧
  ∀ s : State,
    (∀ n, shape s.regs n → ∃ G : Grid Res, holdsGrid n G (fun i j => mod26 (adjugate n (signedKey s.regs) i j)) ∧
      exec .adj s = .next { s with regs := finished { s.regs with adj := G } }) ∧
    shapeErrors .adj s

/-- R123. -/
def Obligations.InvWritesTheInverseMod26 : Prop :=
  decode 0x00000004 = .ok .inv ∧
  ∀ s : State,
    (∀ n, shape s.regs n →
      (unitDet s.regs n → ∃ G : Grid Res,
        holdsGrid n G (fun i j =>
          mod26 (inv26 (mod26 (det n (signedKey s.regs))) * adjugate n (signedKey s.regs) i j)) ∧
        exec .inv s = .next { s with regs := finished { s.regs with inv := G } }) ∧
      (¬unitDet s.regs n → failsWith .inv s .notInvertible)) ∧
    shapeErrors .inv s

/-- R124: CHECK never fails; a bad shape gives 0. -/
def Obligations.CheckWritesInvertible : Prop :=
  decode 0x00000005 = .ok .check ∧
  ∀ s : State, ∃ b : Bool, (b = true ↔ ∃ n, shape s.regs n ∧ unitDet s.regs n) ∧
    exec .check s = .next { s with regs := finished { s.regs with invertible := b } }

/-- R142. -/
def Obligations.EncWritesKeyTimesVector : Prop :=
  decode 0x00000010 = .ok .enc ∧
  ∀ s : State,
    (∀ n, shape s.regs n → unitDet s.regs n → lettersOk s.regs n → ∃ q : Quad Res,
      holdsVec n q (fun k => mod26 (∑ c ∈ Finset.range n, signedKey s.regs k c * unsignedVin s.regs c)) ∧
      exec .enc s = .next { s with regs := finished { s.regs with vout := q } }) ∧
    codecErrors .enc s

/-- R143: the inverse is computed from KEY; INV does not enter. -/
def Obligations.DecWritesInverseTimesVector : Prop :=
  decode 0x00000011 = .ok .dec ∧
  ∀ s : State,
    (∀ n, shape s.regs n → unitDet s.regs n → lettersOk s.regs n → ∃ q : Quad Res,
      holdsVec n q (fun k =>
        mod26 (∑ c ∈ Finset.range n,
          mod26 (inv26 (mod26 (det n (signedKey s.regs))) * adjugate n (signedKey s.regs) k c)
            * unsignedVin s.regs c)) ∧
      exec .dec s = .next { s with regs := finished { s.regs with vout := q } }) ∧
    codecErrors .dec s

/-- R98: after a success, every entry of the written array with an index at or above n is 0. -/
def Obligations.SuccessZeroesEntriesBeyondTheDimension : Prop :=
  ∀ (s t : State) (n : Nat), shape s.regs n →
    (exec .adj s = .next t → t.regs.errcode = .noError →
      ∀ i j : Fin 4, n ≤ i.val ∨ n ≤ j.val → Grid.get t.regs.adj i j = 0) ∧
    (exec .inv s = .next t → t.regs.errcode = .noError →
      ∀ i j : Fin 4, n ≤ i.val ∨ n ≤ j.val → Grid.get t.regs.inv i j = 0) ∧
    (exec .enc s = .next t ∨ exec .dec s = .next t → t.regs.errcode = .noError →
      ∀ k : Fin 4, n ≤ k.val → Quad.get t.regs.vout k = 0)

/-! ## The arithmetic -/

/-- R110. -/
def Obligations.ReductionIsTheResidueInRange : Prop :=
  ∀ x r : Int, mod26 x = r ↔ 0 ≤ r ∧ r ≤ 25 ∧ (26 : Int) ∣ x - r

/-- R111: the units are the twelve listed residues. -/
def Obligations.UnitsAreTheListedResidues : Prop :=
  ∀ r : Int, 0 ≤ r → r ≤ 25 →
    ((isUnit r = true ↔ Int.gcd r 26 = 1) ∧
     (isUnit r = true ↔ r ∈ ([1, 3, 5, 7, 9, 11, 15, 17, 19, 21, 23, 25] : List Int)))

/-- R112: for a unit residue, the one x in [1, 25] with product 1, and the table of the rule. -/
def Obligations.ScalarInverseIsUniqueAndTabulated : Prop :=
  (∀ r x : Int, 0 ≤ r → r ≤ 25 → isUnit r = true →
    (inv26 r = x ↔ 1 ≤ x ∧ x ≤ 25 ∧ mod26 (r * x) = 1)) ∧
  [1, 3, 5, 7, 9, 11, 15, 17, 19, 21, 23, 25].map inv26 = [1, 9, 21, 15, 3, 19, 7, 23, 11, 5, 17, 25]

/-- R114: expansion along row 0, its two- and three-dimensional forms, and that it is the determinant of Mathlib's
matrices, whose value no choice of row or column changes. -/
def Obligations.DeterminantIsTheExactRowExpansion : Prop :=
  (∀ A : Mat, det 1 A = A 0 0) ∧
  (∀ (n : Nat) (A : Mat), det (n + 2) A =
    ∑ j ∈ Finset.range (n + 2), (-1) ^ j * A 0 j * det (n + 1) (minor A 0 j)) ∧
  (∀ A : Mat, det 2 A = A 0 0 * A 1 1 - A 0 1 * A 1 0) ∧
  (∀ A : Mat, det 3 A = A 0 0 * (A 1 1 * A 2 2 - A 1 2 * A 2 1) - A 0 1 * (A 1 0 * A 2 2 - A 1 2 * A 2 0)
    + A 0 2 * (A 1 0 * A 2 1 - A 1 1 * A 2 0)) ∧
  (∀ (n : Nat) (A : Mat), 1 ≤ n → det n A = Matrix.det (Matrix.of fun i j : Fin n => A i.val j.val))

/-- R115, R116: the adjugate is the transpose of the cofactor matrix, and it is Mathlib's adjugate. -/
def Obligations.AdjugateIsTheTransposedCofactorMatrix : Prop :=
  ∀ (n : Nat) (A : Mat), 2 ≤ n →
    (∀ i j : Nat, i < n → j < n → adjugate n A i j = (-1) ^ (i + j) * det (n - 1) (minor A j i)) ∧
    (∀ i j : Fin n, adjugate n A i.val j.val
      = Matrix.adjugate (Matrix.of fun i j : Fin n => A i.val j.val) i j)

/-- R125. -/
def Obligations.InverseMatrixIsTwoSided : Prop :=
  ∀ (n : Nat) (A : Mat), 2 ≤ n → keyInvertible n A = true → ∀ i j : Nat, i < n → j < n →
    mod26 (∑ c ∈ Finset.range n, A i c * invMat n A c j) = (if i = j then 1 else 0) ∧
    mod26 (∑ c ∈ Finset.range n, invMat n A i c * A c j) = (if i = j then 1 else 0)

/-- R144: for a key that passes the codec's check and a block of letters, both commands succeed, DEC after ENC gives the
block back, and ENC after DEC does. -/
def Obligations.EncryptionAndDecryptionInvertEachOther : Prop :=
  ∀ (s : State) (n : Nat), shape s.regs n → unitDet s.regs n → lettersOk s.regs n →
    (∃ t u, exec .enc s = .next t ∧ t.regs.errcode = .noError ∧
      exec .dec (chained n t) = .next u ∧ u.regs.errcode = .noError ∧
      ∀ k : Fin 4, k.val < n → Res.word (Quad.get u.regs.vout k) = Quad.get s.regs.vin k) ∧
    (∃ t u, exec .dec s = .next t ∧ t.regs.errcode = .noError ∧
      exec .enc (chained n t) = .next u ∧ u.regs.errcode = .noError ∧
      ∀ k : Fin 4, k.val < n → Res.word (Quad.get u.regs.vout k) = Quad.get s.regs.vin k)

/-! ## The register window -/

/-- R54: exactly the listed accesses are bus errors, and a bus error changes nothing. -/
def Obligations.BusErrorsAreExactlyTheListedAccesses : Prop :=
  ∀ (r : Regs) (off size : Nat) (v : Word),
    ((size ≠ 4 ∨ off % 4 ≠ 0 ∨ reserved off ∨ 0x200 ≤ off) →
      access r (.read off size) = (.busError off, r) ∧ access r (.write off size v) = (.busError off, r)) ∧
    (¬(size ≠ 4 ∨ off % 4 ≠ 0 ∨ reserved off ∨ 0x200 ≤ off) →
      (∃ d, access r (.read off size) = (.data d, r)) ∧ (access r (.write off size v)).1 = .written)

/-- R57: the whole effect of a legal write, register by register. -/
def Obligations.LegalWritesHaveExactlyTheirEffect : Prop :=
  ∀ (r : Regs) (v : Word),
    (∀ off ∈ [0x000, 0x004, 0x014, 0x01C], access r (.write off 4 v) = (.written, r)) ∧
    (∀ off : Nat, off % 4 = 0 → (0x080 ≤ off ∧ off < 0x100) ∨ (0x110 ≤ off ∧ off < 0x120) →
      access r (.write off 4 v) = (.written, r)) ∧
    access r (.write 0x00C 4 v) = (.written, { r with
      done := if v.getLsbD 1 then false else r.done, ovr := if v.getLsbD 4 then false else r.ovr }) ∧
    (r.busy = true → ∀ g : Reg, g.accessClass = .busyProtected ∨ g = .cmd →
      access r (.write g.off 4 v) = (.written, { r with ovr := true })) ∧
    (r.busy = false →
      access r (.write 0x008 4 v) = (.written, { r with
        krows := v.extractLsb' 0 3, kcols := v.extractLsb' 4 3, ie := v.getLsbD 8 }) ∧
      access r (.write 0x018 4 v) = (.written, { r with scalarIn := v }) ∧
      (∀ i j : Fin 4, access r (.write (0x040 + 0x10 * i.val + 4 * j.val) 4 v)
        = (.written, { r with key := Grid.set r.key i j v })) ∧
      (∀ k : Fin 4, access r (.write (0x100 + 4 * k.val) 4 v) = (.written, { r with vin := Quad.set r.vin k v })) ∧
      access r (.write 0x010 4 v) = (.written, { r with pending := v, busy := true, done := false }))

/-- 20_memory.md R56, R60; 10_state.md R23 to R26: a register written while the block is idle reads back the word
(CTRL: its stored fields), and every other register reads as before. -/
def Obligations.IdleOperandWritesReadBack : Prop :=
  ∀ (r : Regs) (g : Reg) (v : Word), g.accessClass = .busyProtected → r.busy = false →
    (access (access r (.write g.off 4 v)).2 (.read g.off 4)).1 = .data (if g = .ctrl then v &&& 0x177 else v) ∧
    ∀ h : Reg, h ≠ g →
      (access (access r (.write g.off 4 v)).2 (.read h.off 4)).1 = (access r (.read h.off 4)).1

/-- R33: the reserved bits of STATUS read 0; a write clears DONE and OVR where its bits [1] and [4] are 1 and changes
nothing else, whatever BUSY is. -/
def Obligations.StatusWritesClearOnlyDoneAndOvr : Prop :=
  ∀ (r : Regs) (v : Word),
    readReg r .status &&& 0xFFFFF0E0 = 0 ∧
    (access r (.write 0x00C 4 v)).1 = .written ∧
    readReg (access r (.write 0x00C 4 v)).2 .status = readReg r .status &&& ~~~(v &&& 0x12) ∧
    ∀ g : Reg, g ≠ .status → readReg (access r (.write 0x00C 4 v)).2 g = readReg r g

/-- R29, with the fields of R27, R28, R30 to R32 and the numbers of 60_exceptions.md R160: what each bit of STATUS reads
as. -/
def Obligations.StatusWordShowsTheFlags : Prop :=
  ∀ r : Regs,
    (readReg r .status).getLsbD 0 = r.busy ∧ (readReg r .status).getLsbD 1 = r.done ∧
    (readReg r .status).getLsbD 2 = decide ((readReg r .status).extractLsb' 8 4 ≠ 0) ∧
    (readReg r .status).getLsbD 3 = r.invertible ∧ (readReg r .status).getLsbD 4 = r.ovr ∧
    (readReg r .status).extractLsb' 8 4 = errNumber r.errcode

/-- R167: IRQ = DONE ∧ IE; every completion of a command raises it where IE = 1; the W1C write and an acceptance drop
it; IE = 0 masks it and leaves DONE; it is 0 at reset. -/
def Obligations.InterruptIsDoneAndEnabled : Prop :=
  (∀ r : Regs, r.irq = ((readReg r .status).getLsbD 1 && (readReg r .ctrl).getLsbD 8)) ∧
  (∀ (s t : State) (rest : List Turn), unitScheduled s rest → step s = .next t → t.regs.irq = s.regs.ie) ∧
  (∀ (r : Regs) (v : Word), v.getLsbD 1 = true → (access r (.write 0x00C 4 v)).2.irq = false) ∧
  (∀ (r : Regs) (w : Word), r.busy = false → (access r (.write 0x010 4 w)).2.irq = false) ∧
  (∀ (r : Regs) (v : Word), r.busy = false → v.getLsbD 8 = false →
    (access r (.write 0x008 4 v)).2.irq = false ∧ (access r (.write 0x008 4 v)).2.done = r.done) ∧
  State.reset.regs.irq = false

/-- R21, R22 and the read of CMD (10_state.md R34): the constant registers read the same in every state, and a write to
ID or PARAM is ignored. -/
def Obligations.ConstantRegistersNeverChange : Prop :=
  ∀ (r : Regs) (v : Word),
    access r (.read 0x000 4) = (.data 0x48434531, r) ∧ access r (.write 0x000 4 v) = (.written, r) ∧
    access r (.read 0x004 4) = (.data 0x00001A24, r) ∧ access r (.write 0x004 4 v) = (.written, r) ∧
    access r (.read 0x010 4) = (.data 0x00000000, r)

/-- 20_memory.md R51, R55: a register at offset off takes the bytes off to off + 3, lane b carrying bits [8b+7 : 8b]. -/
def Obligations.ByteLanesAreLittleEndian : Prop :=
  ∀ (r : Regs) (g : Reg), ∃ b0 b1 b2 b3 : Byte,
    byteAt r g.off = some b0 ∧ byteAt r (g.off + 1) = some b1 ∧ byteAt r (g.off + 2) = some b2 ∧
    byteAt r (g.off + 3) = some b3 ∧ readReg r g = (b3 ++ b2 ++ b1 ++ b0 : BitVec 32)

/-! ## Reset -/

/-- R191: ID and PARAM are their constants and every other register reads 0. PENDING is not stated: the spec leaves its
reset value unspecified. -/
def Obligations.ResetRegistersReadAsListed : Prop :=
  readReg State.reset.regs .id = 0x48434531 ∧ readReg State.reset.regs .param = 0x00001A24 ∧
  (∀ g : Reg, g ≠ .id → g ≠ .param → readReg State.reset.regs g = 0) ∧
  State.reset.regs.busy = false ∧ State.reset.regs.irq = false

/-- R190, with the two moments of an RST pulse: asserting RST in any state puts every register at its reset value, a
command in flight with it; so does releasing it; while it is asserted the command unit does nothing and the host has no
step. The edges and the fault are the model's form (log entry 9), and so is that the host's program, response and failed
assertions stay (log entry 14). -/
def Obligations.ResetAbandonsTheCommandInFlight : Prop :=
  ∀ (s : State) (rest : List Turn),
    (s.schedule = .assertRst :: rest →
      step s = .next { s with schedule := rest, rst := true, regs := Regs.reset }) ∧
    (s.rst = true → s.schedule = .releaseRst :: rest →
      step s = .next { s with schedule := rest, rst := false, regs := Regs.reset }) ∧
    (s.rst = true → s.schedule = .unit :: rest →
      step s = .next { s with schedule := rest, regs := Regs.reset }) ∧
    (s.rst = true → s.schedule = .host :: rest → s.script ≠ [] → step s = .fault .accessInReset)

/-- R193: with CTRL and SCALAR_IN as reset leaves them. -/
def Obligations.KeyCommandsFailUntilCtrlIsWritten : Prop :=
  ∀ s : State, readReg s.regs .ctrl = 0 →
    (∀ i ∈ [Instr.det, .adj, .inv, .enc, .dec], failsWith i s .keyDim) ∧
    exec .check s = .next { s with regs := finished { s.regs with invertible := false } } ∧
    (s.regs.scalarIn = 0 → failsWith .modinv s .notInvertible) ∧
    exec .nop s = .next { s with regs := finished s.regs }

/-! ## Whole-machine rules -/

/-- Every result register holds a residue, SCALAR_OUT is 0 or a unit, DONE is 0 while a command is in flight, and the
registers are at reset while RST is asserted: every step keeps this. -/
def Obligations.EveryStepKeepsResultsInRange : Prop :=
  ∀ s t : State, s.Inv → step s = .next t → t.Inv

/-- The invariant holds right after reset. -/
def Obligations.ResetResultsAreInRange : Prop := State.reset.Inv

/-- Result registers and INVERTIBLE change only at a completion of a command that decodes, or by reset (10_state.md
section 6; 40_command_lifecycle.md R94, R95). The completion may be the one the model chooses for an empty schedule (log
entry 5). -/
def Obligations.ResultsChangeOnlyAtCompletion : Prop :=
  ∀ s t : State, step s = .next t →
    sameResults s.regs t.regs ∨ resetNext s ∨
    ∃ i rest, completesNext s rest ∧ decode s.regs.pending = .ok i ∧ t.regs.errcode = .noError ∧
      t.regs.busy = false ∧ t.regs.done = true ∧
      (i ≠ .check → t.regs.invertible = s.regs.invertible)

/-- R31: OVR is set only by a dropped host write, and cleared only by a STATUS write with bit [4] = 1 or by reset. -/
def Obligations.OverrunIsStickyUntilCleared : Prop :=
  (∀ s t : State, step s = .next t → s.regs.ovr = false → t.regs.ovr = true →
    s.regs.busy = true ∧ ∃ (g : Reg) (v : Word),
      (g.accessClass = .busyProtected ∨ g = .cmd) ∧ hostNext s (.access (.write g.off 4 v))) ∧
  (∀ s t : State, step s = .next t → s.regs.ovr = true → t.regs.ovr = false →
    resetNext s ∨ ∃ v : Word, v.getLsbD 4 = true ∧ hostNext s (.access (.write 0x00C 4 v))) ∧
  (∀ (s : State) (g : Reg) (v : Word), (g.accessClass = .busyProtected ∨ g = .cmd) → s.regs.busy = true →
    hostNext s (.access (.write g.off 4 v)) → ∃ t, step s = .next t ∧ t.regs.ovr = true) ∧
  (∀ (s : State) (v : Word), v.getLsbD 4 = true → hostNext s (.access (.write 0x00C 4 v)) →
    ∃ t, step s = .next t ∧ t.regs.ovr = false) ∧
  State.reset.regs.ovr = false

/-- R96, one step: while a command stays in flight, no step changes an operand or PENDING. -/
def Obligations.OperandsAreStableWhileInFlight : Prop :=
  ∀ s t : State, s.rst = false → step s = .next t → s.regs.busy = true → t.regs.busy = true →
    sameOperands s.regs t.regs ∧ s.regs.pending = t.regs.pending

/-- R96: after any number of host turns, the completion gives the result registers, the error code and the operands that
a completion at once gives. -/
def Obligations.CompletionTimeDoesNotChangeTheOutcome : Prop :=
  ∀ (s : State) (k : Nat) (rest : List Turn), s.rst = false → s.regs.busy = true →
    ∃ t u, core.run (k + 1) { s with schedule := List.replicate k .host ++ .unit :: rest } = .next t ∧
      core.run 1 { s with schedule := .unit :: rest } = .next u ∧
      sameResults t.regs u.regs ∧ t.regs.errcode = u.regs.errcode ∧ sameOperands t.regs u.regs ∧
      t.regs.busy = false ∧ t.regs.done = true

/-- R102: a command in flight completes within the turns still scheduled and one more, where none of them asserts RST.
That the step after the last scheduled turn is the completion step is the model's choice (log entry 5). -/
def Obligations.AcceptedCommandsComplete : Prop :=
  ∀ s : State, s.rst = false → s.regs.busy = true → .assertRst ∉ s.schedule →
    ∃ k t, k ≤ s.schedule.length + 1 ∧ core.run k s = .next t ∧ t.regs.busy = false ∧ t.regs.done = true

/-- R41: while BUSY = 0, PENDING cannot be observed: replacing it by any word changes no register the host can read, no
answer of the port and no flag, now or after a step, but PENDING itself. -/
def Obligations.PendingIsUnobservableWhileIdle : Prop :=
  ∀ (s : State) (w : Word), s.regs.busy = false →
    (∀ g : Reg, readReg { s.regs with pending := w } g = readReg s.regs g) ∧
    ∀ t : State, step s = .next t →
      ∃ t', step { s with regs := { s.regs with pending := w } } = .next t' ∧
        t' = { t with regs := { t.regs with pending := t'.regs.pending } } ∧
        (t.regs.busy = true → t'.regs.pending = t.regs.pending)

/-- R195: a result read between acceptance and completion returns the old value; the same read after the completion step
returns what the command left. Both orders are schedules of the machine. -/
def Obligations.EarlyReadsSeeOldResultsLateReadsNew : Prop :=
  ∀ (s u : State) (g : Reg) (rest : List HostOp), s.rst = false → s.regs.busy = true →
    s.script = .access (.read g.off 4) :: rest → core.run 1 { s with schedule := [.unit] } = .next u →
    (∃ t, core.run 1 { s with schedule := [.host] } = .next t ∧ t.resp = some (.data (readReg s.regs g)) ∧
      t.regs = s.regs ∧ t.script = rest) ∧
    (∃ t, core.run 2 { s with schedule := [.unit, .host] } = .next t ∧ t.resp = some (.data (readReg u.regs g)) ∧
      t.regs = u.regs ∧ t.script = rest)

/-- R82, R202: the host leaves WAIT exactly at a poll that reads BUSY = 0, and with no turn scheduled it has left it
after at most two steps, the command in flight being complete. The bound rests on the model's choice for the unscheduled
turns (log entry 5). -/
def Obligations.WaitEndsWithTheCommandComplete : Prop :=
  (∀ (s t : State) (rest : List HostOp), hostNext s .wait → s.script = .wait :: rest → step s = .next t →
    t.regs = s.regs ∧ t.resp = some (.data (readReg s.regs .status)) ∧
    t.script = if s.regs.busy then .wait :: rest else rest) ∧
  (∀ (s : State) (rest : List HostOp), s.rst = false → s.script = .wait :: rest → s.schedule = [] →
    ∃ k t, k ≤ 2 ∧ core.run k s = .next t ∧ t.script = rest ∧ t.regs.busy = false ∧
      (s.regs.busy = true → t.regs.done = true))

/-- R82: what the expansion of LDKEY leaves: the shape n×n, IE = 0, the n·n entries row by row, each the constant mod 2^32
(R80: -d stands for 2^32 - d), and every other register as before. The range of n and of the constants is the model's check
on the line (log entry 18); the idle host's turns are not scheduled (log entry 5). -/
def Obligations.LoadKeyLoadsTheMatrix : Prop :=
  ∀ (s : State) (n : Nat) (es : List Int), 1 ≤ n → n ≤ 4 → es.length = n * n →
    (∀ v ∈ es, -(2 ^ 31) ≤ v ∧ v < 2 ^ 32) →
    s.rst = false → s.regs.busy = false → s.script = (ScriptLine.ldKey n es).expand → s.schedule = [] →
    ∃ t, core.run (n * n + 1) s = .next t ∧ t.script = [] ∧
      t.regs.krows.toNat = n ∧ t.regs.kcols.toNat = n ∧ t.regs.ie = false ∧
      (∀ i j : Fin 4, i.val < n → j.val < n →
        ((Grid.get t.regs.key i j).toNat : Int) = es.getD (i.val * n + j.val) 0 % 2 ^ 32) ∧
      (∀ i j : Fin 4, n ≤ i.val ∨ n ≤ j.val → Grid.get t.regs.key i j = Grid.get s.regs.key i j) ∧
      t.regs = { s.regs with
        krows := t.regs.krows, kcols := t.regs.kcols, ie := t.regs.ie, key := t.regs.key }

/-! ## The operands and the reads -/

/-- 10_state.md R44: an entry of the key operand is the 32-bit word of KEY read as a signed integer in
[-2^31, 2^31 - 1], not reduced. -/
def Obligations.KeyOperandIsTheSignedKey : Prop :=
  ∀ (r : Regs) (i j : Fin 4),
    keyOperand r i.val j.val = (if (Grid.get r.key i j).toNat < 2 ^ 31 then ((Grid.get r.key i j).toNat : Int)
      else (Grid.get r.key i j).toNat - 2 ^ 32) ∧
    keyOperand r i.val j.val = (Grid.get r.key i j).toInt ∧
    -(2 ^ 31) ≤ keyOperand r i.val j.val ∧ keyOperand r i.val j.val ≤ 2 ^ 31 - 1

/-- 10_state.md R45: an entry of the vector operand is VIN[k] read unsigned, and no codec command uses a block with an
entry above 25: it fails and VOUT keeps its value. -/
def Obligations.VectorOperandIsTheUnsignedBlock : Prop :=
  (∀ (r : Regs) (k : Fin 4), vecOperand r k.val = (Quad.get r.vin k).toNat) ∧
  ∀ (s : State) (n : Nat) (k : Fin 4), shape s.regs n → k.val < n → 25 < (Quad.get s.regs.vin k).toNat →
    ∀ i ∈ [Instr.enc, .dec], ∃ t, exec i s = .next t ∧ t.regs.errcode ≠ .noError ∧ t.regs.vout = s.regs.vout

/-- 20_memory.md R56: a legal read answers the register's current value, reserved and zero bits 0, CMD 0, and changes
nothing, so it is idempotent. PARAM's NMAX is whatever the part has; the result registers are those of 10_state.md R35 to
R39. -/
def Obligations.LegalReadsReturnTheRegisters : Prop :=
  ∀ r : Regs,
    (∀ off size : Nat, (access r (.read off size)).2 = r) ∧
    (∀ g : Reg, (access r (.read g.off 4)).1 = .data (readReg r g)) ∧
    (access r (.read 0x000 4)).1 = .data 0x48434531 ∧
    (access r (.read 0x004 4)).1 = .data (0#16 ++ 26#8 ++ 2#4 ++ BitVec.ofNat 4 Config.nmax : BitVec 32) ∧
    (access r (.read 0x008 4)).1
      = .data (0#23 ++ BitVec.ofBool r.ie ++ 0#1 ++ r.kcols ++ 0#1 ++ r.krows : BitVec 32) ∧
    (access r (.read 0x00C 4)).1
      = .data (0#20 ++ errNumber r.errcode ++ 0#3 ++ BitVec.ofBool r.ovr ++ BitVec.ofBool r.invertible
          ++ BitVec.ofBool (decide (r.errcode ≠ .noError)) ++ BitVec.ofBool r.done ++ BitVec.ofBool r.busy : BitVec 32) ∧
    (access r (.read 0x010 4)).1 = .data 0x00000000 ∧
    (access r (.read 0x014 4)).1 = .data (resultWord r.det) ∧
    (access r (.read 0x018 4)).1 = .data r.scalarIn ∧
    (access r (.read 0x01C 4)).1 = .data (resultWord r.scalarOut) ∧
    (∀ i j : Fin 4,
      (access r (.read (0x040 + 16 * i.val + 4 * j.val) 4)).1 = .data (Grid.get r.key i j) ∧
      (access r (.read (0x080 + 16 * i.val + 4 * j.val) 4)).1 = .data (resultWord (Grid.get r.adj i j)) ∧
      (access r (.read (0x0C0 + 16 * i.val + 4 * j.val) 4)).1 = .data (resultWord (Grid.get r.inv i j))) ∧
    (∀ k : Fin 4,
      (access r (.read (0x100 + 4 * k.val) 4)).1 = .data (Quad.get r.vin k) ∧
      (access r (.read (0x110 + 4 * k.val) 4)).1 = .data (resultWord (Quad.get r.vout k)))

/-- The turn the model takes where none is scheduled: the command unit's while a command is in flight, else the host's.
This is the model's choice, log entry 5; the spec fixes no order (40_command_lifecycle.md R93, R102). -/
def Obligations.UnscheduledTurnIsTheModelsChoice : Prop :=
  ∀ s : State, s.schedule = [] →
    step s = step { s with schedule := [if s.regs.busy then .unit else .host] }
end

