-- ==== Sys2Proof/Laws/Quad.lean ====
section
/-! SUPPORT. Reading and writing the register arrays. -/

namespace Sys2Proof.Machine

variable {α : Type}

@[simp] theorem Quad.get_ofFn (f : Fin 4 → α) (k : Fin 4) : (Quad.ofFn f).get k = f k := by
  fin_cases k <;> rfl

@[simp] theorem Grid.get_ofFn (f : Fin 4 → Fin 4 → α) (i j : Fin 4) : Grid.get (Grid.ofFn f) i j = f i j := by
  simp [Grid.get, Grid.ofFn]

@[simp] theorem Quad.get_set_same (q : Quad α) (k : Fin 4) (v : α) : (q.set k v).get k = v := by
  fin_cases k <;> rfl

theorem Quad.get_set (q : Quad α) (k l : Fin 4) (v : α) :
    (q.set k v).get l = if l = k then v else q.get l := by
  fin_cases k <;> fin_cases l <;> rfl

@[simp] theorem Grid.get_set_same (g : Grid α) (i j : Fin 4) (v : α) : Grid.get (Grid.set g i j v) i j = v := by
  simp [Grid.get, Grid.set]

theorem Grid.get_set (g : Grid α) (i j k l : Fin 4) (v : α) :
    Grid.get (Grid.set g i j v) k l = if k = i ∧ l = j then v else Grid.get g k l := by
  by_cases hk : k = i
  · subst hk
    simp [Grid.get, Grid.set, Quad.get_set]
  · simp [Grid.get, Grid.set, Quad.get_set, hk]

/-- Two arrays with the same entries are the same array. -/
theorem Quad.ext_get {q p : Quad α} (h : ∀ k, q.get k = p.get k) : q = p := by
  cases q; cases p
  simpa [Quad.get] using And.intro (h 0) (And.intro (h 1) (And.intro (h 2) (h 3)))

/-- Two grids with the same entries are the same grid. -/
theorem Grid.ext_get {g p : Grid α} (h : ∀ i j, Grid.get g i j = Grid.get p i j) : g = p :=
  Quad.ext_get fun i => Quad.ext_get fun j => h i j

end Sys2Proof.Machine
end

