-- ==== Sys2Proof/Laws/Arith.lean ====
section
/-! SUPPORT. The facts of the mod-26 arithmetic that proofs cite. -/

namespace Sys2Proof.Machine

theorem mod26_nonneg (x : Int) : 0 ≤ mod26 x := Int.emod_nonneg _ (by decide)

theorem mod26_le (x : Int) : mod26 x ≤ 25 := by
  have := Int.emod_lt_of_pos x (show (0 : Int) < 26 by decide)
  simp only [mod26, Config.modulus]
  omega

/-- Reduction ignores an earlier reduction, on either side of a product (00_scope.md R14). -/
theorem mod26_mul (x y : Int) : mod26 (mod26 x * mod26 y) = mod26 (x * y) := by
  simp [mod26, Config.modulus, ← Int.mul_emod]

theorem mod26_add (x y : Int) : mod26 (mod26 x + mod26 y) = mod26 (x + y) := by
  simp [mod26, Config.modulus]

@[simp] theorem mod26_mod26 (x : Int) : mod26 (mod26 x) = mod26 x := by
  simp [mod26, Config.modulus]

/-- A value in [0, 31] is stored and read back unchanged. -/
theorem toRes_toNat {x : Int} (h0 : 0 ≤ x) (h1 : x ≤ 31) : ((toRes x).toNat : Int) = x := by
  simp only [toRes, BitVec.toNat_ofInt]
  omega

theorem toRes_mod26_toNat (x : Int) : ((toRes (mod26 x)).toNat : Int) = mod26 x :=
  toRes_toNat (mod26_nonneg x) (le_trans (mod26_le x) (by decide))

theorem toRes_mod26_le (x : Int) : (toRes (mod26 x)).toNat ≤ 25 := by
  have := toRes_mod26_toNat x
  have := mod26_le x
  omega

@[simp] theorem resVec_get (n : Nat) (f : Nat → Int) (k : Fin 4) :
    (resVec n f).get k = if k.val < n then toRes (mod26 (f k.val)) else 0 := by
  simp [resVec]

@[simp] theorem resGrid_get (n : Nat) (A : Mat) (i j : Fin 4) :
    Grid.get (resGrid n A) i j = if i.val < n ∧ j.val < n then toRes (mod26 (A i.val j.val)) else 0 := by
  simp [resGrid]

/-- The scalar inverse of a unit: in [1, 25], with product 1 mod 26, and itself a unit (41_matrix_algebra.md R112). -/
theorem inv26_spec (x : Int) (h : isUnit (mod26 x) = true) :
    1 ≤ inv26 (mod26 x) ∧ inv26 (mod26 x) ≤ 25 ∧ mod26 (mod26 x * inv26 (mod26 x)) = 1
      ∧ isUnit (inv26 (mod26 x)) = true := by
  have h0 := mod26_nonneg x
  have h1 := mod26_le x
  generalize mod26 x = r at *
  interval_cases r <;> revert h <;> decide

end Sys2Proof.Machine
end

