-- ==== Sys2Proof/Laws/State.lean ====
section
/-! SUPPORT. One lemma per field per update of the registers and of the state, so that no proof unfolds a record
update. -/

namespace Sys2Proof.Machine

/-! ### accept -/

@[simp] theorem Regs.accept_krows (r : Regs) (w : Word) : (r.accept w).krows = r.krows := rfl
@[simp] theorem Regs.accept_kcols (r : Regs) (w : Word) : (r.accept w).kcols = r.kcols := rfl
@[simp] theorem Regs.accept_ie (r : Regs) (w : Word) : (r.accept w).ie = r.ie := rfl
@[simp] theorem Regs.accept_busy (r : Regs) (w : Word) : (r.accept w).busy = true := rfl
@[simp] theorem Regs.accept_done (r : Regs) (w : Word) : (r.accept w).done = false := rfl
@[simp] theorem Regs.accept_invertible (r : Regs) (w : Word) : (r.accept w).invertible = r.invertible := rfl
@[simp] theorem Regs.accept_ovr (r : Regs) (w : Word) : (r.accept w).ovr = r.ovr := rfl
@[simp] theorem Regs.accept_errcode (r : Regs) (w : Word) : (r.accept w).errcode = r.errcode := rfl
@[simp] theorem Regs.accept_pending (r : Regs) (w : Word) : (r.accept w).pending = w := rfl
@[simp] theorem Regs.accept_det (r : Regs) (w : Word) : (r.accept w).det = r.det := rfl
@[simp] theorem Regs.accept_scalarIn (r : Regs) (w : Word) : (r.accept w).scalarIn = r.scalarIn := rfl
@[simp] theorem Regs.accept_scalarOut (r : Regs) (w : Word) : (r.accept w).scalarOut = r.scalarOut := rfl
@[simp] theorem Regs.accept_key (r : Regs) (w : Word) : (r.accept w).key = r.key := rfl
@[simp] theorem Regs.accept_adj (r : Regs) (w : Word) : (r.accept w).adj = r.adj := rfl
@[simp] theorem Regs.accept_inv (r : Regs) (w : Word) : (r.accept w).inv = r.inv := rfl
@[simp] theorem Regs.accept_vin (r : Regs) (w : Word) : (r.accept w).vin = r.vin := rfl
@[simp] theorem Regs.accept_vout (r : Regs) (w : Word) : (r.accept w).vout = r.vout := rfl

/-! ### setCtrl -/

@[simp] theorem Regs.setCtrl_krows (r : Regs) (v : Word) : (r.setCtrl v).krows = v.extractLsb' 0 3 := rfl
@[simp] theorem Regs.setCtrl_kcols (r : Regs) (v : Word) : (r.setCtrl v).kcols = v.extractLsb' 4 3 := rfl
@[simp] theorem Regs.setCtrl_ie (r : Regs) (v : Word) : (r.setCtrl v).ie = v.getLsbD 8 := rfl
@[simp] theorem Regs.setCtrl_busy (r : Regs) (v : Word) : (r.setCtrl v).busy = r.busy := rfl
@[simp] theorem Regs.setCtrl_done (r : Regs) (v : Word) : (r.setCtrl v).done = r.done := rfl
@[simp] theorem Regs.setCtrl_invertible (r : Regs) (v : Word) : (r.setCtrl v).invertible = r.invertible := rfl
@[simp] theorem Regs.setCtrl_ovr (r : Regs) (v : Word) : (r.setCtrl v).ovr = r.ovr := rfl
@[simp] theorem Regs.setCtrl_errcode (r : Regs) (v : Word) : (r.setCtrl v).errcode = r.errcode := rfl
@[simp] theorem Regs.setCtrl_pending (r : Regs) (v : Word) : (r.setCtrl v).pending = r.pending := rfl
@[simp] theorem Regs.setCtrl_det (r : Regs) (v : Word) : (r.setCtrl v).det = r.det := rfl
@[simp] theorem Regs.setCtrl_scalarIn (r : Regs) (v : Word) : (r.setCtrl v).scalarIn = r.scalarIn := rfl
@[simp] theorem Regs.setCtrl_scalarOut (r : Regs) (v : Word) : (r.setCtrl v).scalarOut = r.scalarOut := rfl
@[simp] theorem Regs.setCtrl_key (r : Regs) (v : Word) : (r.setCtrl v).key = r.key := rfl
@[simp] theorem Regs.setCtrl_adj (r : Regs) (v : Word) : (r.setCtrl v).adj = r.adj := rfl
@[simp] theorem Regs.setCtrl_inv (r : Regs) (v : Word) : (r.setCtrl v).inv = r.inv := rfl
@[simp] theorem Regs.setCtrl_vin (r : Regs) (v : Word) : (r.setCtrl v).vin = r.vin := rfl
@[simp] theorem Regs.setCtrl_vout (r : Regs) (v : Word) : (r.setCtrl v).vout = r.vout := rfl

/-! ### clearStatus -/

@[simp] theorem Regs.clearStatus_krows (r : Regs) (v : Word) : (r.clearStatus v).krows = r.krows := rfl
@[simp] theorem Regs.clearStatus_kcols (r : Regs) (v : Word) : (r.clearStatus v).kcols = r.kcols := rfl
@[simp] theorem Regs.clearStatus_ie (r : Regs) (v : Word) : (r.clearStatus v).ie = r.ie := rfl
@[simp] theorem Regs.clearStatus_busy (r : Regs) (v : Word) : (r.clearStatus v).busy = r.busy := rfl
@[simp] theorem Regs.clearStatus_done (r : Regs) (v : Word) : (r.clearStatus v).done = (r.done && !v.getLsbD 1) := rfl
@[simp] theorem Regs.clearStatus_invertible (r : Regs) (v : Word) : (r.clearStatus v).invertible = r.invertible := rfl
@[simp] theorem Regs.clearStatus_ovr (r : Regs) (v : Word) : (r.clearStatus v).ovr = (r.ovr && !v.getLsbD 4) := rfl
@[simp] theorem Regs.clearStatus_errcode (r : Regs) (v : Word) : (r.clearStatus v).errcode = r.errcode := rfl
@[simp] theorem Regs.clearStatus_pending (r : Regs) (v : Word) : (r.clearStatus v).pending = r.pending := rfl
@[simp] theorem Regs.clearStatus_det (r : Regs) (v : Word) : (r.clearStatus v).det = r.det := rfl
@[simp] theorem Regs.clearStatus_scalarIn (r : Regs) (v : Word) : (r.clearStatus v).scalarIn = r.scalarIn := rfl
@[simp] theorem Regs.clearStatus_scalarOut (r : Regs) (v : Word) : (r.clearStatus v).scalarOut = r.scalarOut := rfl
@[simp] theorem Regs.clearStatus_key (r : Regs) (v : Word) : (r.clearStatus v).key = r.key := rfl
@[simp] theorem Regs.clearStatus_adj (r : Regs) (v : Word) : (r.clearStatus v).adj = r.adj := rfl
@[simp] theorem Regs.clearStatus_inv (r : Regs) (v : Word) : (r.clearStatus v).inv = r.inv := rfl
@[simp] theorem Regs.clearStatus_vin (r : Regs) (v : Word) : (r.clearStatus v).vin = r.vin := rfl
@[simp] theorem Regs.clearStatus_vout (r : Regs) (v : Word) : (r.clearStatus v).vout = r.vout := rfl

/-! ### finish -/

@[simp] theorem Regs.finish_krows (r : Regs) (e : ErrCode) : (r.finish e).krows = r.krows := rfl
@[simp] theorem Regs.finish_kcols (r : Regs) (e : ErrCode) : (r.finish e).kcols = r.kcols := rfl
@[simp] theorem Regs.finish_ie (r : Regs) (e : ErrCode) : (r.finish e).ie = r.ie := rfl
@[simp] theorem Regs.finish_busy (r : Regs) (e : ErrCode) : (r.finish e).busy = false := rfl
@[simp] theorem Regs.finish_done (r : Regs) (e : ErrCode) : (r.finish e).done = true := rfl
@[simp] theorem Regs.finish_invertible (r : Regs) (e : ErrCode) : (r.finish e).invertible = r.invertible := rfl
@[simp] theorem Regs.finish_ovr (r : Regs) (e : ErrCode) : (r.finish e).ovr = r.ovr := rfl
@[simp] theorem Regs.finish_errcode (r : Regs) (e : ErrCode) : (r.finish e).errcode = e := rfl
@[simp] theorem Regs.finish_pending (r : Regs) (e : ErrCode) : (r.finish e).pending = r.pending := rfl
@[simp] theorem Regs.finish_det (r : Regs) (e : ErrCode) : (r.finish e).det = r.det := rfl
@[simp] theorem Regs.finish_scalarIn (r : Regs) (e : ErrCode) : (r.finish e).scalarIn = r.scalarIn := rfl
@[simp] theorem Regs.finish_scalarOut (r : Regs) (e : ErrCode) : (r.finish e).scalarOut = r.scalarOut := rfl
@[simp] theorem Regs.finish_key (r : Regs) (e : ErrCode) : (r.finish e).key = r.key := rfl
@[simp] theorem Regs.finish_adj (r : Regs) (e : ErrCode) : (r.finish e).adj = r.adj := rfl
@[simp] theorem Regs.finish_inv (r : Regs) (e : ErrCode) : (r.finish e).inv = r.inv := rfl
@[simp] theorem Regs.finish_vin (r : Regs) (e : ErrCode) : (r.finish e).vin = r.vin := rfl
@[simp] theorem Regs.finish_vout (r : Regs) (e : ErrCode) : (r.finish e).vout = r.vout := rfl

/-! ### fail -/

@[simp] theorem Regs.fail_krows (r : Regs) (e : ErrCode) : (r.fail e).krows = r.krows := rfl
@[simp] theorem Regs.fail_kcols (r : Regs) (e : ErrCode) : (r.fail e).kcols = r.kcols := rfl
@[simp] theorem Regs.fail_ie (r : Regs) (e : ErrCode) : (r.fail e).ie = r.ie := rfl
@[simp] theorem Regs.fail_busy (r : Regs) (e : ErrCode) : (r.fail e).busy = false := rfl
@[simp] theorem Regs.fail_done (r : Regs) (e : ErrCode) : (r.fail e).done = true := rfl
@[simp] theorem Regs.fail_invertible (r : Regs) (e : ErrCode) : (r.fail e).invertible = r.invertible := rfl
@[simp] theorem Regs.fail_ovr (r : Regs) (e : ErrCode) : (r.fail e).ovr = r.ovr := rfl
@[simp] theorem Regs.fail_errcode (r : Regs) (e : ErrCode) : (r.fail e).errcode = e := rfl
@[simp] theorem Regs.fail_pending (r : Regs) (e : ErrCode) : (r.fail e).pending = r.pending := rfl
@[simp] theorem Regs.fail_det (r : Regs) (e : ErrCode) : (r.fail e).det = r.det := rfl
@[simp] theorem Regs.fail_scalarIn (r : Regs) (e : ErrCode) : (r.fail e).scalarIn = r.scalarIn := rfl
@[simp] theorem Regs.fail_scalarOut (r : Regs) (e : ErrCode) : (r.fail e).scalarOut = r.scalarOut := rfl
@[simp] theorem Regs.fail_key (r : Regs) (e : ErrCode) : (r.fail e).key = r.key := rfl
@[simp] theorem Regs.fail_adj (r : Regs) (e : ErrCode) : (r.fail e).adj = r.adj := rfl
@[simp] theorem Regs.fail_inv (r : Regs) (e : ErrCode) : (r.fail e).inv = r.inv := rfl
@[simp] theorem Regs.fail_vin (r : Regs) (e : ErrCode) : (r.fail e).vin = r.vin := rfl
@[simp] theorem Regs.fail_vout (r : Regs) (e : ErrCode) : (r.fail e).vout = r.vout := rfl

/-! ### applyResult: what no command writes -/

@[simp] theorem Regs.applyResult_krows (r : Regs) (w : Result) : (r.applyResult w).krows = r.krows := by cases w <;> rfl
@[simp] theorem Regs.applyResult_kcols (r : Regs) (w : Result) : (r.applyResult w).kcols = r.kcols := by cases w <;> rfl
@[simp] theorem Regs.applyResult_ie (r : Regs) (w : Result) : (r.applyResult w).ie = r.ie := by cases w <;> rfl
@[simp] theorem Regs.applyResult_busy (r : Regs) (w : Result) : (r.applyResult w).busy = r.busy := by cases w <;> rfl
@[simp] theorem Regs.applyResult_done (r : Regs) (w : Result) : (r.applyResult w).done = r.done := by cases w <;> rfl
@[simp] theorem Regs.applyResult_ovr (r : Regs) (w : Result) : (r.applyResult w).ovr = r.ovr := by cases w <;> rfl
@[simp] theorem Regs.applyResult_errcode (r : Regs) (w : Result) : (r.applyResult w).errcode = r.errcode := by cases w <;> rfl
@[simp] theorem Regs.applyResult_pending (r : Regs) (w : Result) : (r.applyResult w).pending = r.pending := by cases w <;> rfl
@[simp] theorem Regs.applyResult_scalarIn (r : Regs) (w : Result) : (r.applyResult w).scalarIn = r.scalarIn := by cases w <;> rfl
@[simp] theorem Regs.applyResult_key (r : Regs) (w : Result) : (r.applyResult w).key = r.key := by cases w <;> rfl
@[simp] theorem Regs.applyResult_vin (r : Regs) (w : Result) : (r.applyResult w).vin = r.vin := by cases w <;> rfl

/-! ### applyResult: the one result each command writes -/

@[simp] theorem Regs.applyResult_nothing (r : Regs) : r.applyResult .nothing = r := rfl
@[simp] theorem Regs.applyResult_det_invertible (r : Regs) (v : Res) : (r.applyResult (.det v)).invertible = r.invertible := rfl
@[simp] theorem Regs.applyResult_det_det (r : Regs) (v : Res) : (r.applyResult (.det v)).det = v := rfl
@[simp] theorem Regs.applyResult_det_scalarOut (r : Regs) (v : Res) : (r.applyResult (.det v)).scalarOut = r.scalarOut := rfl
@[simp] theorem Regs.applyResult_det_adj (r : Regs) (v : Res) : (r.applyResult (.det v)).adj = r.adj := rfl
@[simp] theorem Regs.applyResult_det_inv (r : Regs) (v : Res) : (r.applyResult (.det v)).inv = r.inv := rfl
@[simp] theorem Regs.applyResult_det_vout (r : Regs) (v : Res) : (r.applyResult (.det v)).vout = r.vout := rfl
@[simp] theorem Regs.applyResult_scalarOut_invertible (r : Regs) (v : Res) : (r.applyResult (.scalarOut v)).invertible = r.invertible := rfl
@[simp] theorem Regs.applyResult_scalarOut_det (r : Regs) (v : Res) : (r.applyResult (.scalarOut v)).det = r.det := rfl
@[simp] theorem Regs.applyResult_scalarOut_scalarOut (r : Regs) (v : Res) : (r.applyResult (.scalarOut v)).scalarOut = v := rfl
@[simp] theorem Regs.applyResult_scalarOut_adj (r : Regs) (v : Res) : (r.applyResult (.scalarOut v)).adj = r.adj := rfl
@[simp] theorem Regs.applyResult_scalarOut_inv (r : Regs) (v : Res) : (r.applyResult (.scalarOut v)).inv = r.inv := rfl
@[simp] theorem Regs.applyResult_scalarOut_vout (r : Regs) (v : Res) : (r.applyResult (.scalarOut v)).vout = r.vout := rfl
@[simp] theorem Regs.applyResult_adj_invertible (r : Regs) (v : Grid Res) : (r.applyResult (.adj v)).invertible = r.invertible := rfl
@[simp] theorem Regs.applyResult_adj_det (r : Regs) (v : Grid Res) : (r.applyResult (.adj v)).det = r.det := rfl
@[simp] theorem Regs.applyResult_adj_scalarOut (r : Regs) (v : Grid Res) : (r.applyResult (.adj v)).scalarOut = r.scalarOut := rfl
@[simp] theorem Regs.applyResult_adj_adj (r : Regs) (v : Grid Res) : (r.applyResult (.adj v)).adj = v := rfl
@[simp] theorem Regs.applyResult_adj_inv (r : Regs) (v : Grid Res) : (r.applyResult (.adj v)).inv = r.inv := rfl
@[simp] theorem Regs.applyResult_adj_vout (r : Regs) (v : Grid Res) : (r.applyResult (.adj v)).vout = r.vout := rfl
@[simp] theorem Regs.applyResult_inv_invertible (r : Regs) (v : Grid Res) : (r.applyResult (.inv v)).invertible = r.invertible := rfl
@[simp] theorem Regs.applyResult_inv_det (r : Regs) (v : Grid Res) : (r.applyResult (.inv v)).det = r.det := rfl
@[simp] theorem Regs.applyResult_inv_scalarOut (r : Regs) (v : Grid Res) : (r.applyResult (.inv v)).scalarOut = r.scalarOut := rfl
@[simp] theorem Regs.applyResult_inv_adj (r : Regs) (v : Grid Res) : (r.applyResult (.inv v)).adj = r.adj := rfl
@[simp] theorem Regs.applyResult_inv_inv (r : Regs) (v : Grid Res) : (r.applyResult (.inv v)).inv = v := rfl
@[simp] theorem Regs.applyResult_inv_vout (r : Regs) (v : Grid Res) : (r.applyResult (.inv v)).vout = r.vout := rfl
@[simp] theorem Regs.applyResult_invertible_invertible (r : Regs) (v : Bool) : (r.applyResult (.invertible v)).invertible = v := rfl
@[simp] theorem Regs.applyResult_invertible_det (r : Regs) (v : Bool) : (r.applyResult (.invertible v)).det = r.det := rfl
@[simp] theorem Regs.applyResult_invertible_scalarOut (r : Regs) (v : Bool) : (r.applyResult (.invertible v)).scalarOut = r.scalarOut := rfl
@[simp] theorem Regs.applyResult_invertible_adj (r : Regs) (v : Bool) : (r.applyResult (.invertible v)).adj = r.adj := rfl
@[simp] theorem Regs.applyResult_invertible_inv (r : Regs) (v : Bool) : (r.applyResult (.invertible v)).inv = r.inv := rfl
@[simp] theorem Regs.applyResult_invertible_vout (r : Regs) (v : Bool) : (r.applyResult (.invertible v)).vout = r.vout := rfl
@[simp] theorem Regs.applyResult_vout_invertible (r : Regs) (v : Quad Res) : (r.applyResult (.vout v)).invertible = r.invertible := rfl
@[simp] theorem Regs.applyResult_vout_det (r : Regs) (v : Quad Res) : (r.applyResult (.vout v)).det = r.det := rfl
@[simp] theorem Regs.applyResult_vout_scalarOut (r : Regs) (v : Quad Res) : (r.applyResult (.vout v)).scalarOut = r.scalarOut := rfl
@[simp] theorem Regs.applyResult_vout_adj (r : Regs) (v : Quad Res) : (r.applyResult (.vout v)).adj = r.adj := rfl
@[simp] theorem Regs.applyResult_vout_inv (r : Regs) (v : Quad Res) : (r.applyResult (.vout v)).inv = r.inv := rfl
@[simp] theorem Regs.applyResult_vout_vout (r : Regs) (v : Quad Res) : (r.applyResult (.vout v)).vout = v := rfl

/-! ### succeed: what every success writes and what none does -/

@[simp] theorem Regs.succeed_krows (r : Regs) (w : Result) : (r.succeed w).krows = r.krows := by cases w <;> rfl
@[simp] theorem Regs.succeed_kcols (r : Regs) (w : Result) : (r.succeed w).kcols = r.kcols := by cases w <;> rfl
@[simp] theorem Regs.succeed_ie (r : Regs) (w : Result) : (r.succeed w).ie = r.ie := by cases w <;> rfl
@[simp] theorem Regs.succeed_busy (r : Regs) (w : Result) : (r.succeed w).busy = false := by cases w <;> rfl
@[simp] theorem Regs.succeed_done (r : Regs) (w : Result) : (r.succeed w).done = true := by cases w <;> rfl
@[simp] theorem Regs.succeed_ovr (r : Regs) (w : Result) : (r.succeed w).ovr = r.ovr := by cases w <;> rfl
@[simp] theorem Regs.succeed_errcode (r : Regs) (w : Result) : (r.succeed w).errcode = .noError := by cases w <;> rfl
@[simp] theorem Regs.succeed_pending (r : Regs) (w : Result) : (r.succeed w).pending = r.pending := by cases w <;> rfl
@[simp] theorem Regs.succeed_scalarIn (r : Regs) (w : Result) : (r.succeed w).scalarIn = r.scalarIn := by cases w <;> rfl
@[simp] theorem Regs.succeed_key (r : Regs) (w : Result) : (r.succeed w).key = r.key := by cases w <;> rfl
@[simp] theorem Regs.succeed_vin (r : Regs) (w : Result) : (r.succeed w).vin = r.vin := by cases w <;> rfl

/-! ### succeed: the results -/

@[simp] theorem Regs.succeed_invertible (r : Regs) (w : Result) : (r.succeed w).invertible = (r.applyResult w).invertible := rfl
@[simp] theorem Regs.succeed_det (r : Regs) (w : Result) : (r.succeed w).det = (r.applyResult w).det := rfl
@[simp] theorem Regs.succeed_scalarOut (r : Regs) (w : Result) : (r.succeed w).scalarOut = (r.applyResult w).scalarOut := rfl
@[simp] theorem Regs.succeed_adj (r : Regs) (w : Result) : (r.succeed w).adj = (r.applyResult w).adj := rfl
@[simp] theorem Regs.succeed_inv (r : Regs) (w : Result) : (r.succeed w).inv = (r.applyResult w).inv := rfl
@[simp] theorem Regs.succeed_vout (r : Regs) (w : Result) : (r.succeed w).vout = (r.applyResult w).vout := rfl

/-! ### storeReg: what a host write never stores to -/

@[simp] theorem storeReg_done (r : Regs) (g : Reg) (v : Word) : (storeReg r g v).done = r.done := by cases g <;> rfl
@[simp] theorem storeReg_invertible (r : Regs) (g : Reg) (v : Word) : (storeReg r g v).invertible = r.invertible := by cases g <;> rfl
@[simp] theorem storeReg_errcode (r : Regs) (g : Reg) (v : Word) : (storeReg r g v).errcode = r.errcode := by cases g <;> rfl
@[simp] theorem storeReg_pending (r : Regs) (g : Reg) (v : Word) : (storeReg r g v).pending = r.pending := by cases g <;> rfl
@[simp] theorem storeReg_det (r : Regs) (g : Reg) (v : Word) : (storeReg r g v).det = r.det := by cases g <;> rfl
@[simp] theorem storeReg_scalarOut (r : Regs) (g : Reg) (v : Word) : (storeReg r g v).scalarOut = r.scalarOut := by cases g <;> rfl
@[simp] theorem storeReg_adj (r : Regs) (g : Reg) (v : Word) : (storeReg r g v).adj = r.adj := by cases g <;> rfl
@[simp] theorem storeReg_inv (r : Regs) (g : Reg) (v : Word) : (storeReg r g v).inv = r.inv := by cases g <;> rfl
@[simp] theorem storeReg_vout (r : Regs) (g : Reg) (v : Word) : (storeReg r g v).vout = r.vout := by cases g <;> rfl
@[simp] theorem storeReg_busy (r : Regs) (g : Reg) (v : Word) : (storeReg r g v).busy = r.busy := by cases g <;> rfl
@[simp] theorem storeReg_ovr (r : Regs) (g : Reg) (v : Word) : (storeReg r g v).ovr = r.ovr := by cases g <;> rfl

/-! ### holdReset and withCommand -/

@[simp] theorem holdReset_regs (s : State) : (holdReset s).regs = Regs.reset := rfl
@[simp] theorem holdReset_rst (s : State) : (holdReset s).rst = s.rst := rfl
@[simp] theorem holdReset_resp (s : State) : (holdReset s).resp = s.resp := rfl
@[simp] theorem holdReset_script (s : State) : (holdReset s).script = s.script := rfl
@[simp] theorem holdReset_failed (s : State) : (holdReset s).failed = s.failed := rfl
@[simp] theorem holdReset_schedule (s : State) : (holdReset s).schedule = s.schedule := rfl
@[simp] theorem withCommand_regs (s : State) (w : Word) : (withCommand s w).regs = s.regs.accept w := rfl
@[simp] theorem withCommand_rst (s : State) (w : Word) : (withCommand s w).rst = false := rfl
@[simp] theorem withCommand_resp (s : State) (w : Word) : (withCommand s w).resp = s.resp := rfl
@[simp] theorem withCommand_script (s : State) (w : Word) : (withCommand s w).script = s.script := rfl
@[simp] theorem withCommand_failed (s : State) (w : Word) : (withCommand s w).failed = s.failed := rfl
@[simp] theorem withCommand_schedule (s : State) (w : Word) : (withCommand s w).schedule = Turn.unit :: s.schedule := rfl

end Sys2Proof.Machine
end

