-- ==== Sys2Proof/Laws/Bus.lean ====
section
/-! SUPPORT. The register map and everything one access can do. -/

namespace Sys2Proof.Machine

/-- The register at a register's own offset is that register (10_state.md R20). -/
@[simp] theorem regAt_off (g : Reg) : regAt g.off = some g := by
  cases g with
  | key i j => fin_cases i <;> fin_cases j <;> rfl
  | adj i j => fin_cases i <;> fin_cases j <;> rfl
  | inv i j => fin_cases i <;> fin_cases j <;> rfl
  | vin k => fin_cases k <;> rfl
  | vout k => fin_cases k <;> rfl
  | _ => rfl

@[simp] theorem target_off (g : Reg) : target g.off 4 = some g := by simp [target]

@[simp] theorem access_read_off (r : Regs) (g : Reg) : access r (.read g.off 4) = (.data (readReg r g), r) := by
  simp [access]

@[simp] theorem access_write_off (r : Regs) (g : Reg) (v : Word) :
    access r (.write g.off 4 v) = (.written, writeReg r g v) := by
  simp [access]

/-- A read changes nothing (20_memory.md R54, R56). -/
@[simp] theorem access_read_regs (r : Regs) (off size : Nat) : (access r (.read off size)).2 = r := by
  cases h : target off size <;> simp [access, h]

/-- The word of a result register: the residue in bits [4:0], zeros above (10_state.md R35 to R39). -/
theorem res_word_eq_append (x : Res) : Res.word x = (0#27 ++ x : BitVec 32) := by
  revert x; decide

/-- No register shows PENDING (10_state.md R41). -/
@[simp] theorem readReg_withPending (r : Regs) (w : Word) (g : Reg) :
    readReg { r with pending := w } g = readReg r g := by
  cases g <;> rfl

/-- Every effect of a legal write (20_memory.md R57). -/
theorem writeReg_cases (r : Regs) (g : Reg) (v : Word) :
    (g.accessClass = .readOnly ∧ writeReg r g v = r) ∨
    (g.accessClass = .status ∧ writeReg r g v = r.clearStatus v) ∨
    (g.accessClass = .busyProtected ∧ r.busy = true ∧ writeReg r g v = { r with ovr := true }) ∨
    (g.accessClass = .busyProtected ∧ r.busy = false ∧ writeReg r g v = storeReg r g v) ∨
    (g.accessClass = .command ∧ r.busy = true ∧ writeReg r g v = { r with ovr := true }) ∨
    (g.accessClass = .command ∧ r.busy = false ∧ writeReg r g v = r.accept v) := by
  unfold writeReg
  cases h : g.accessClass <;> cases hb : r.busy <;> simp

/-- Every effect of one access on the registers: none, or a legal write's (20_memory.md R54, R56, R57). -/
theorem access_cases (r : Regs) (a : Access) :
    (access r a).2 = r ∨
    ∃ off v g, a = .write off 4 v ∧ regAt off = some g ∧ access r a = (.written, writeReg r g v) := by
  cases a with
  | read off size => left; cases h : target off size <;> simp [access, h]
  | write off size v =>
    by_cases hs : size = 4
    · subst hs
      cases h : regAt off with
      | none => left; simp [access, target, h]
      | some g => right; exact ⟨off, v, g, rfl, h, by simp [access, target, h]⟩
    · left; simp [access, target, hs]

end Sys2Proof.Machine
end

