-- ==== Sys2Proof/Laws/Operands.lean ====
section
/-! SUPPORT. What the operand checks answer, said once. -/

namespace Sys2Proof.Machine

/-- An entry of the key operand is the signed word (10_state.md R44). -/
@[simp] theorem keyOperand_apply (r : Regs) (i j : Fin 4) : keyOperand r i.val j.val = (Grid.get r.key i j).toInt := by
  simp [keyOperand]

/-- An entry of the vector operand is the unsigned word (10_state.md R45). -/
@[simp] theorem vecOperand_apply (r : Regs) (k : Fin 4) : vecOperand r k.val = (Quad.get r.vin k).toNat := by
  simp [vecOperand]

/-- The key-shape checks pass exactly on a square shape in range, and give that dimension (40_command_lifecycle.md
R97). -/
theorem keyShape_ok_iff (r : Regs) (n : Nat) :
    keyShape r = .ok n ↔ 2 ≤ n ∧ n ≤ 4 ∧ r.krows = r.kcols ∧ r.krows.toNat = n := by
  by_cases h : r.krows.toNat < 2 ∨ r.krows.toNat > 4 ∨ r.kcols.toNat < 2 ∨ r.kcols.toNat > 4
  · have hk : keyShape r = .error .keyDim := if_pos h
    constructor
    · intro h'; rw [hk] at h'; cases h'
    · rintro ⟨h2, h4, he, rfl⟩
      rw [← he] at h
      omega
  · by_cases he : r.krows = r.kcols
    · have hk : keyShape r = .ok r.krows.toNat := (if_neg h).trans (if_neg (not_not.2 he))
      rw [hk, Except.ok.injEq]
      exact ⟨fun e => ⟨by omega, by omega, he, e⟩, fun e => e.2.2.2⟩
    · have hk : keyShape r = .error .keyNonsquare := (if_neg h).trans (if_pos he)
      simp [hk, he]

/-- The codec's key check passes exactly where the shape does and the key is invertible (42_block_codec.md R141). -/
theorem codecKey_ok_iff (r : Regs) (n : Nat) :
    codecKey r = .ok n ↔ keyShape r = .ok n ∧ keyInvertible n (keyOperand r) = true := by
  unfold codecKey
  cases h : keyShape r with
  | error e => simp
  | ok m =>
    by_cases hk : keyInvertible m (keyOperand r) = true
    · simp only [hk, if_true, Except.ok.injEq]
      constructor
      · rintro rfl; exact ⟨rfl, hk⟩
      · exact fun h => h.1
    · simp only [if_neg hk, Except.ok.injEq, reduceCtorEq, false_iff]
      rintro ⟨rfl, h⟩
      exact hk h

/-- The input check passes exactly where every operand entry is at most 25 (42_block_codec.md R140). -/
theorem inputCheck_ok_iff (r : Regs) (n : Nat) :
    inputCheck r n = .ok () ↔ ∀ k < n, vecOperand r k ≤ 25 := by
  unfold inputCheck
  split
  · rename_i h; simpa using h
  · rename_i h; simpa using h

theorem inputCheck_error (r : Regs) (n : Nat) (e : ErrCode) (h : inputCheck r n = .error e) :
    e = .invalidInput := by
  unfold inputCheck at h
  split at h
  · cases h
  · cases h; rfl

/-- The shape check's errors (R97). -/
theorem keyShape_error (r : Regs) (e : ErrCode) (h : keyShape r = .error e) : e = .keyDim ∨ e = .keyNonsquare := by
  unfold keyShape at h
  split at h
  · cases h; exact .inl rfl
  · split at h
    · cases h; exact .inr rfl
    · cases h

end Sys2Proof.Machine
end

