-- ==== Sys2Proof/Laws/Completion.lean ====
section
/-! SUPPORT. What a completion does, and what each command's outcome can be, said once. -/

namespace Sys2Proof.Machine

@[simp] theorem complete_ok (s : State) (w : Result) :
    complete s (.ok w) = .next { s with regs := s.regs.succeed w } := rfl

@[simp] theorem complete_error (s : State) (e : ErrCode) :
    complete s (.error e) = .next { s with regs := s.regs.fail e } := rfl

/-- The outcome each command's completion commits (40_command_lifecycle.md R100). -/
def outcomeOf : Instr → Regs → Except ErrCode Result
  | .nop, _ => .ok .nothing
  | .det, r => detOutcome r
  | .modinv, r => modinvOutcome r
  | .adj, r => adjOutcome r
  | .inv, r => invOutcome r
  | .check, r => checkOutcome r
  | .enc, r => encOutcome r
  | .dec, r => decOutcome r

theorem exec_eq_complete (i : Instr) (s : State) : exec i s = complete s (outcomeOf i s.regs) := by
  cases i <;> rfl

/-- A completion never stops: it answers a next state in which only the registers differ, by a success or by a
failure (R94, R95). -/
theorem complete_cases (s : State) (o : Except ErrCode Result) :
    (∃ w, o = .ok w ∧ complete s o = .next { s with regs := s.regs.succeed w }) ∨
    (∃ e, o = .error e ∧ complete s o = .next { s with regs := s.regs.fail e }) := by
  cases o with
  | ok w => exact .inl ⟨w, rfl, rfl⟩
  | error e => exact .inr ⟨e, rfl, rfl⟩

/-- DET's outcomes (41_matrix_algebra.md R120). -/
theorem detOutcome_ok {r : Regs} {n : Nat} (h : keyShape r = .ok n) :
    detOutcome r = .ok (.det (toRes (mod26 (det n (keyOperand r))))) := by
  simp [detOutcome, h]

/-- ADJ's outcomes (R122). -/
theorem adjOutcome_ok {r : Regs} {n : Nat} (h : keyShape r = .ok n) :
    adjOutcome r = .ok (.adj (resGrid n (adjugate n (keyOperand r)))) := by
  simp [adjOutcome, h]

/-- INV's success (R123). -/
theorem invOutcome_ok {r : Regs} {n : Nat} (h : keyShape r = .ok n) (hu : keyInvertible n (keyOperand r) = true) :
    invOutcome r = .ok (.inv (resGrid n (invMat n (keyOperand r)))) := by
  simp only [invOutcome, h]
  exact if_pos hu

/-- The codec's success (42_block_codec.md R142, R143). -/
theorem codecOutcome_ok {r : Regs} {n : Nat} (B : Nat → Mat → Mat) (hk : codecKey r = .ok n)
    (hv : ∀ k < n, vecOperand r k ≤ 25) :
    codecOutcome r B = .ok (.vout (resVec n (mulVec n (B n (keyOperand r)) (vecOperand r)))) := by
  simp [codecOutcome, hk, (inputCheck_ok_iff r n).2 hv]

end Sys2Proof.Machine
end

