-- ==== Sys2Proof/Laws/Flags.lean ====
section
/-! SUPPORT. The bits of STATUS and CTRL, each fact checked once over all values of the fields. -/

namespace Sys2Proof.Machine

/-- The bits outside the fields of STATUS read 0 (10_state.md R33). -/
theorem statusBits_reserved (b d e i o : Bool) (c : BitVec 4) : statusBits b d e i o c &&& 0xFFFFF0E0 = 0 := by
  revert b d e i o c; decide +kernel

@[simp] theorem statusBits_busy (b d e i o : Bool) (c : BitVec 4) : (statusBits b d e i o c).getLsbD 0 = b := by
  revert b d e i o c; decide +kernel

@[simp] theorem statusBits_done (b d e i o : Bool) (c : BitVec 4) : (statusBits b d e i o c).getLsbD 1 = d := by
  revert b d e i o c; decide +kernel

@[simp] theorem statusBits_err (b d e i o : Bool) (c : BitVec 4) : (statusBits b d e i o c).getLsbD 2 = e := by
  revert b d e i o c; decide +kernel

@[simp] theorem statusBits_invertible (b d e i o : Bool) (c : BitVec 4) :
    (statusBits b d e i o c).getLsbD 3 = i := by
  revert b d e i o c; decide +kernel

@[simp] theorem statusBits_ovr (b d e i o : Bool) (c : BitVec 4) : (statusBits b d e i o c).getLsbD 4 = o := by
  revert b d e i o c; decide +kernel

@[simp] theorem statusBits_code (b d e i o : Bool) (c : BitVec 4) :
    (statusBits b d e i o c).extractLsb' 8 4 = c := by
  revert b d e i o c; decide +kernel

/-- The fields of CTRL, and that it is 0 only with every field 0 (R23). -/
theorem ctrlBits_fields (k l : BitVec 3) (e : Bool) :
    (ctrlBits k l e).extractLsb' 0 3 = k ∧ (ctrlBits k l e).extractLsb' 4 3 = l ∧ (ctrlBits k l e).getLsbD 8 = e ∧
      (ctrlBits k l e = 0 → k = 0 ∧ l = 0 ∧ e = false) := by
  revert k l e; decide +kernel

@[simp] theorem readReg_status (r : Regs) :
    readReg r .status = statusBits r.busy r.done r.err r.invertible r.ovr r.errcode.code := rfl

@[simp] theorem readReg_ctrl (r : Regs) : readReg r .ctrl = ctrlBits r.krows r.kcols r.ie := rfl

end Sys2Proof.Machine
end

