-- ==== Sys2Proof/Laws/Turns.lean ====
section
/-! SUPPORT. Everything one turn can do, so that no proof unfolds the step. -/

namespace Sys2Proof.Machine

theorem step_scheduled (s : State) (t : Turn) (rest : List Turn) (h : s.schedule = t :: rest) :
    step s = takeTurn t { s with schedule := rest } := by
  simp [step, advance, h]

theorem step_unscheduled (s : State) (h : s.schedule = []) : step s = takeTurn (unscheduledTurn s) s := by
  simp [step, advance, h]

/-- A step is one turn at a state that differs at most in the turns to come. -/
theorem step_eq_takeTurn (s : State) :
    ∃ t rest, step s = takeTurn t { s with schedule := rest } ∧
      (s.schedule = t :: rest ∨ s.schedule = [] ∧ rest = [] ∧ t = unscheduledTurn s) := by
  cases h : s.schedule with
  | nil =>
    refine ⟨unscheduledTurn s, [], ?_, .inr ⟨rfl, rfl, rfl⟩⟩
    rw [step_unscheduled s h]
    cases s; cases h; rfl
  | cons t rest => exact ⟨t, rest, step_scheduled s t rest h, .inl rfl⟩

/-- What the command unit's turn does: nothing but hold the reset values, or a completion, or nothing. -/
theorem unitTurn_cases (s : State) :
    (s.rst = true ∧ unitTurn s = .next (holdReset s)) ∨
    (s.rst = false ∧ s.regs.busy = false ∧ unitTurn s = .next s) ∨
    (s.rst = false ∧ s.regs.busy = true ∧
      ((∃ i, decode s.regs.pending = .ok i ∧ unitTurn s = exec i s) ∨
       (∃ e, decode s.regs.pending = .error e ∧ unitTurn s = complete s (.error .illegalCmd)))) := by
  unfold unitTurn
  cases hr : s.rst
  · cases hb : s.regs.busy
    · simp
    · cases hd : decode s.regs.pending with
      | ok i => simp
      | error e => simp [completeIllegal]
  · simp

/-- What one item of the host's program does to the registers: nothing, or one access. -/
theorem runHostOp_regs (op : HostOp) (rest : List HostOp) (s : State) :
    (runHostOp op rest s).regs = s.regs ∨
    ∃ a, op = .access a ∧ (runHostOp op rest s).regs = (access s.regs a).2 := by
  cases op with
  | access a => exact .inr ⟨a, rfl, rfl⟩
  | expect off v => exact .inl rfl
  | wait => exact .inl rfl
  | waitDone => exact .inl rfl

@[simp] theorem runHostOp_rst (op : HostOp) (rest : List HostOp) (s : State) :
    (runHostOp op rest s).rst = s.rst := by
  cases op <;> rfl

@[simp] theorem runHostOp_schedule (op : HostOp) (rest : List HostOp) (s : State) :
    (runHostOp op rest s).schedule = s.schedule := by
  cases op <;> rfl

/-- What the host's turn does. -/
theorem hostTurn_cases (s : State) :
    (s.script = [] ∧ s.rst = true ∧ hostTurn s = .next (holdReset s)) ∨
    (s.script = [] ∧ s.rst = false ∧ hostTurn s = .next s) ∨
    (∃ op rest, s.script = op :: rest ∧
      ((s.rst = true ∧ hostTurn s = .fault .accessInReset) ∨
       (s.rst = false ∧ hostTurn s = .next (runHostOp op rest s)))) := by
  unfold hostTurn
  cases hs : s.script <;> cases hr : s.rst <;> simp

end Sys2Proof.Machine
end

