-- ==== Sys2Proof/Laws/InFlight.lean ====
section
/-! SUPPORT. The two turns while a command is in flight, said once for every claim about runs. -/

namespace Sys2Proof.Machine

/-- One more step of a run of any machine. -/
theorem run_succ (M : Host.Core) (k : Nat) (s : M.State) :
    M.run (k + 1) s =
      match M.step s with
      | .next t => M.run k t
      | .fault r => .fault r
      | .refused r => .refused r := rfl

/-- A run whose first step goes on. -/
theorem run_next {k : Nat} {s t : State} (h : step s = .next t) : core.run (k + 1) s = core.run k t := by
  have e := run_succ core k s
  rw [show core.step s = .next t from h] at e
  exact e

@[simp] theorem run_zero (s : State) : core.run 0 s = .next s := rfl

/-- A host turn while a command is in flight out of reset never stops and leaves the command, its operands, the
results, the outcome code and the schedule as they are (20_memory.md R58; 40_command_lifecycle.md R92). -/
theorem hostTurn_inFlight (s : State) (hr : s.rst = false) (hb : s.regs.busy = true) :
    ∃ t, hostTurn s = .next t ∧ t.rst = false ∧ t.regs.busy = true ∧ t.schedule = s.schedule ∧
      sameOperands s.regs t.regs ∧ sameResults s.regs t.regs ∧ t.regs.pending = s.regs.pending ∧
      t.regs.errcode = s.regs.errcode := by
  rcases hostTurn_cases s with ⟨-, h, -⟩ | ⟨-, -, h⟩ | ⟨op, r2, -, ⟨h, -⟩ | ⟨-, h⟩⟩
  · rw [hr] at h; cases h
  · exact ⟨_, h, hr, hb, rfl, ⟨rfl, rfl, rfl, rfl, rfl, rfl⟩, ⟨rfl, rfl, rfl, rfl, rfl, rfl⟩, rfl, rfl⟩
  · rw [hr] at h; cases h
  · refine ⟨_, h, by simp [hr], ?_⟩
    simp only [runHostOp_schedule, true_and]
    rcases runHostOp_regs op r2 s with h | ⟨a, -, h⟩
    · rw [h]; exact ⟨hb, ⟨rfl, rfl, rfl, rfl, rfl, rfl⟩, ⟨rfl, rfl, rfl, rfl, rfl, rfl⟩, rfl, rfl⟩
    · rw [h]
      rcases access_cases s.regs a with h | ⟨off, v, g, -, -, h⟩
      · rw [h]; exact ⟨hb, ⟨rfl, rfl, rfl, rfl, rfl, rfl⟩, ⟨rfl, rfl, rfl, rfl, rfl, rfl⟩, rfl, rfl⟩
      · rw [h]
        rcases writeReg_cases s.regs g v with ⟨-, h⟩ | ⟨-, h⟩ | ⟨-, h2, h⟩ | ⟨-, h2, -⟩ | ⟨-, h2, h⟩ | ⟨-, h2, -⟩
        all_goals first
          | exact absurd (hb.symm.trans h2) (by decide)
          | (dsimp only
             rw [h]
             exact ⟨hb, ⟨rfl, rfl, rfl, rfl, rfl, rfl⟩, ⟨rfl, rfl, rfl, rfl, rfl, rfl⟩, rfl, rfl⟩)

/-- The command unit's turn while a command is in flight out of reset completes it (40_command_lifecycle.md R93). -/
theorem unitTurn_inFlight (s : State) (hr : s.rst = false) (hb : s.regs.busy = true) :
    ∃ t, unitTurn s = .next t ∧ t.regs.busy = false ∧ t.regs.done = true ∧ sameOperands s.regs t.regs := by
  rcases unitTurn_cases s with ⟨h, -⟩ | ⟨-, h, -⟩ | ⟨-, -, ⟨i, -, h⟩ | ⟨e, -, h⟩⟩
  · rw [hr] at h; cases h
  · rw [hb] at h; cases h
  · rw [h, exec_eq_complete]
    rcases complete_cases s (outcomeOf i s.regs) with ⟨w, -, h⟩ | ⟨e, -, h⟩ <;>
      exact ⟨_, h, by simp, by simp, by constructor <;> simp⟩
  · exact ⟨_, h, by simp, by simp, by constructor <;> simp⟩

end Sys2Proof.Machine
end

