-- ==== Sys2Proof/Laws/PerInstr.lean ====
section
/-! SUPPORT. The statements made of every command as syntax, one lemma per constructor. -/

/-- Family `Encoding`: the command is well-formed, its word is legal, and RSV of the word is 0 (30_encoding.md R71,
R72, R74). -/
def Sys2Proof.Laws.Encoding.Statement (i : Sys2Proof.Instr) : Prop :=
  i.wellFormed = true ∧ Sys2Proof.legalWord (Sys2Proof.encode i) = true
    ∧ Sys2Proof.wordRsv (Sys2Proof.encode i) = 0

namespace Sys2Proof.Laws.Encoding

theorem nop : Statement .nop := by unfold Statement; decide
theorem det : Statement .det := by unfold Statement; decide
theorem modinv : Statement .modinv := by unfold Statement; decide
theorem adj : Statement .adj := by unfold Statement; decide
theorem inv : Statement .inv := by unfold Statement; decide
theorem check : Statement .check := by unfold Statement; decide
theorem enc : Statement .enc := by unfold Statement; decide
theorem dec : Statement .dec := by unfold Statement; decide

end Sys2Proof.Laws.Encoding
end

