-- ==== Sys2Proof/Laws/Script.lean ====
section
/-! SUPPORT. The words a host script's constants stand for. -/

namespace Sys2Proof.Machine

/-- A constant's word is the constant mod 2^32, so -d stands for 2^32 - d (30_encoding.md R80). -/
theorem valueWord_toNat (v : Int) : ((valueWord v).toNat : Int) = v % 2 ^ 32 := by
  rw [valueWord, BitVec.toNat_ofInt, Int.toNat_of_nonneg (Int.emod_nonneg _ (by decide))]
  rfl

end Sys2Proof.Machine
end

