-- ==== Sys2Proof/Tests/Slice0.lean ====
section
/-! SUPPORT. Tests of the model. Expected values come from spec/95_test_vectors.md (the section stands beside each) and
from the encodings and reset tables of the spec. The witnesses of the statements are in Tests/Witnesses.lean. -/

namespace Sys2Proof.Tests

set_option Elab.async false

open Sys2Proof.Machine Sys2Proof.Claims

/-! ### Small states -/

/-- The reset registers with a 2×2 key. -/
def key2 (a b c d : Word) : Regs :=
  { Regs.reset with krows := 2, kcols := 2, key := ⟨⟨a, b, 0, 0⟩, ⟨c, d, 0, 0⟩, ⟨0, 0, 0, 0⟩, ⟨0, 0, 0, 0⟩⟩ }

/-- K2 = [[3,3],[2,5]]. -/
def k2 : Regs := key2 3 3 2 5

/-- Kneg = [[-1,2],[3,-5]]. -/
def kneg : Regs := key2 0xFFFFFFFF 2 3 0xFFFFFFFB

/-- Kbig = [[2^31-1,1],[-2^31,1]]. -/
def kbig : Regs := key2 0x7FFFFFFF 1 0x80000000 1

/-- Ksing = [[2,4],[1,2]]. -/
def ksing : Regs := key2 2 4 1 2

/-- K3 = [[6,24,1],[13,16,10],[20,17,15]]. -/
def k3 : Regs :=
  { Regs.reset with krows := 3, kcols := 3, key := ⟨⟨6, 24, 1, 0⟩, ⟨13, 16, 10, 0⟩, ⟨20, 17, 15, 0⟩, ⟨0, 0, 0, 0⟩⟩ }

/-- K4b = [[2,0,1,3],[1,1,0,2],[0,3,1,1],[1,0,2,1]]. -/
def k4b : Regs :=
  { Regs.reset with krows := 4, kcols := 4, key := ⟨⟨2, 0, 1, 3⟩, ⟨1, 1, 0, 2⟩, ⟨0, 3, 1, 1⟩, ⟨1, 0, 2, 1⟩⟩ }

/-- VIN = (a, b, c, d). -/
def vec (r : Regs) (a b c d : Word) : Regs := { r with vin := ⟨a, b, c, d⟩ }

/-- A machine with these registers, nothing scheduled and an empty script. -/
def st (r : Regs) : State := { State.reset with regs := r }

/-- A machine with these registers and the command `w` in flight. -/
def inFlight (r : Regs) (w : Word) : State := st (r.accept w)

/-- The registers after a step, the reset ones if it stops. -/
def after (o : Host.Outcome State Fault Refusal) : Regs :=
  match o with
  | .next t => t.regs
  | .fault _ | .refused _ => Regs.reset

/-- A step went on to a state of which `p` holds. -/
def goesTo (o : Host.Outcome State Fault Refusal) (p : State → Bool) : Bool :=
  match o with
  | .next t => p t
  | .fault _ | .refused _ => false

/-! ### Decoding: words written out from 30_encoding.md R71, R73 -/

theorem test_decode_nop : decode 0b00000000000000000000000000000000#32 = .ok .nop := by decide
theorem test_decode_det : decode 0b00000000000000000000000000000001#32 = .ok .det := by decide
theorem test_decode_modinv : decode 0b00000000000000000000000000000010#32 = .ok .modinv := by decide
theorem test_decode_adj : decode 0b00000000000000000000000000000011#32 = .ok .adj := by decide
theorem test_decode_inv : decode 0b00000000000000000000000000000100#32 = .ok .inv := by decide
theorem test_decode_check : decode 0b00000000000000000000000000000101#32 = .ok .check := by decide
theorem test_decode_enc : decode 0b00000000000000000000000000010000#32 = .ok .enc := by decide
theorem test_decode_dec : decode 0b00000000000000000000000000010001#32 = .ok .dec := by decide

/-- L2.6: undefined OP values and a nonzero RSV. -/
theorem test_decode_illegal :
    [0x06, 0x0F, 0x12, 0xFF].map decode = List.replicate 4 (.error .undefinedOp) ∧
    [0x100, 0x80000001, 0x101].map decode = List.replicate 3 (.error .reservedBits) := by decide

/-! ### Well-formedness: each check refuses an ill-formed term -/

theorem test_legalWord_refuses_reserved_bits : legalWord 0x00000100 = false := by decide
theorem test_legalWord_refuses_undefined_op : legalWord 0x00000006 = false := by decide
theorem test_script_refuses_wide_constant : (ScriptLine.wr .scalarIn 0x100000000).wellFormed = false := by decide
theorem test_script_refuses_short_key : (ScriptLine.ldKey 2 [3, 3, 2]).wellFormed = false := by decide
theorem test_script_refuses_big_key : (ScriptLine.ldKey 5 (List.replicate 25 0)).wellFormed = false := by decide
theorem test_script_refuses_long_vector : (ScriptLine.ldVec [0, 1, 2, 3, 4]).wellFormed = false := by decide

/-! ### The commands -/

/-- L2.8: NOP clears an old ERRCODE and OVR stays. -/
theorem test_nop : (after (exec .nop (st { Regs.reset with errcode := .notInvertible, ovr := true }))).statusWord
    = 0x00000012 := by decide

/-- L2.3: Kbig's determinant is 2^32 - 1, exact; a wrapping product would give 25. -/
theorem test_det_exact : (after (exec .det (st kbig))).det = 21 := by decide +kernel

/-- L2.3: K4b. -/
theorem test_det_four : (after (exec .det (st k4b))).det = 25 := by decide +kernel

/-- L2.2: a = -17. -/
theorem test_modinv_negative :
    (after (exec .modinv (st { Regs.reset with scalarIn := 0xFFFFFFEF }))).scalarOut = 3 := by decide +kernel

/-- L2.2: a = 26 fails and keeps SCALAR_OUT. -/
theorem test_modinv_not_invertible :
    goesTo (exec .modinv (st { Regs.reset with scalarIn := 26, scalarOut := 3 }))
      (fun t => t.regs.scalarOut == 3 && t.regs.statusWord == 0x00000406) = true := by decide +kernel

/-- L2.3: K2 mod 26, zero outside 2×2. -/
theorem test_adj_two : (after (exec .adj (st { k2 with adj := ⟨⟨9, 9, 9, 9⟩, ⟨9, 9, 9, 9⟩, ⟨9, 9, 9, 9⟩, ⟨9, 9, 9, 9⟩⟩ }))).adj
    = ⟨⟨5, 23, 0, 0⟩, ⟨24, 3, 0, 0⟩, ⟨0, 0, 0, 0⟩, ⟨0, 0, 0, 0⟩⟩ := by decide +kernel

/-- L2.3: K3, where the transpose shows. -/
theorem test_adj_three : (after (exec .adj (st k3))).adj
    = ⟨⟨18, 21, 16, 0⟩, ⟨5, 18, 5, 0⟩, ⟨5, 14, 18, 0⟩, ⟨0, 0, 0, 0⟩⟩ := by decide +kernel

/-- L2.3: K4b. -/
theorem test_inv_four : (after (exec .inv (st k4b))).inv
    = ⟨⟨15, 15, 21, 8⟩, ⟨23, 4, 25, 2⟩, ⟨2, 23, 1, 25⟩, ⟨7, 17, 3, 21⟩⟩ := by decide +kernel

/-- L2.6: INV of a singular key reports 4, never 5. -/
theorem test_inv_singular : (after (exec .inv (st ksing))).statusWord = 0x00000406 := by decide +kernel

/-- L2.4. -/
theorem test_check_invertible : (after (exec .check (st kbig))).statusWord = 0x0000000A := by decide +kernel

/-- L2.4: a non-square key is no error. -/
theorem test_check_nonsquare :
    (after (exec .check (st { k2 with krows := 2, kcols := 3, invertible := true }))).statusWord = 0x00000002 := by
  decide +kernel

/-- L2.5: K4b, MATH gives MAAF. -/
theorem test_enc_math : (after (exec .enc (st (vec k4b 12 0 19 7)))).vout = ⟨12, 0, 0, 5⟩ := by decide +kernel

/-- L2.6: the key error comes before the input error. -/
theorem test_enc_key_before_input : (after (exec .enc (st (vec ksing 30 0 0 0)))).statusWord = 0x00000506 := by
  decide +kernel

/-- L2.5: Kneg, AZ gives YZ; entries at or above n are not checked. -/
theorem test_dec_negative : (after (exec .dec (st (vec kneg 0 25 99 99)))).vout = ⟨24, 25, 0, 0⟩ := by decide +kernel

/-- L2.6: VIN is read unsigned. -/
theorem test_dec_invalid_input : (after (exec .dec (st (vec k2 0 0xFFFFFFFF 0 0)))).statusWord = 0x00000606 := by
  decide +kernel

/-! ### The window, the lifecycle and the host's script -/

/-- L2.7: CTRL stores its fields only. -/
theorem test_ctrl_readback :
    (access (access Regs.reset (.write 0x008 4 0xFFFFFFFF)).2 (.read 0x008 4)).1 = .data 0x00000177 := by decide

/-- L2.7: W1C bits one by one. -/
theorem test_status_w1c :
    (access { Regs.reset with done := true, ovr := true } (.write 0x00C 4 0x2)).2.statusWord = 0x10 ∧
    (access { Regs.reset with done := true, ovr := true } (.write 0x00C 4 0x10)).2.statusWord = 0x02 := by decide

/-- L2.7: reserved, misaligned, narrow and out-of-window accesses. -/
theorem test_bus_errors :
    [(0x020, 4), (0x03C, 4), (0x120, 4), (0x1FC, 4), (0x200, 4), (0x042, 4), (0x040, 2), (0x00D, 1), (0x010, 1)].all
      (fun p => access k2 (.write p.1 p.2 1) == (.busError p.1, k2)) = true := by decide

/-- 30_encoding.md R81: KEY12 is at 0x058; R83: `RD VOUT1 == 8` is (R, 0x114, 8). -/
theorem test_offsets : (Reg.key 1 2).off = 0x058 ∧
    (ScriptLine.rdEq (.vout 1) 8).expand.map HostOp.encoded = [some (.read 0x114 (some 8))] := by decide

/-- R55: byte 1 of ID, 0x48434531, in little-endian lanes. -/
theorem test_byte_lanes : byteAt Regs.reset 1 = some 0x45 ∧ byteAt Regs.reset 0x021 = none := by decide

/-- L2.8: the second CMD write is dropped and sets OVR. -/
theorem test_overrun :
    (access (k2.accept 1) (.write 0x010 4 4)).2.statusWord = 0x00000011 := by decide

/-- L3, P4 schedule B, lines 1 to 9, every assertion of the script holding. -/
def p4 : List ScriptLine :=
  [.wr .ctrl 0x100, .wr .scalarIn (-17), .cmd .modinv, .wr .scalarIn 5, .rdEq .status 0x11, .rdEq .status 0x12,
   .rdEq .scalarOut 3, .rdEq .scalarIn 0xFFFFFFEF]

/-- The end of P4's line 9: IRQ is 1, no assertion failed, the script is done. -/
theorem test_program_four :
    goesTo (core.run 9 { State.reset with
        script := expandScript p4, schedule := List.replicate 5 .host ++ [.unit] ++ List.replicate 3 .host })
      (fun t => t.regs.irq && !t.failed && t.script.isEmpty) = true := by decide +kernel

/-- L3, P1 lines 1 to 10 with WAIT, nothing scheduled. -/
def p1 : List ScriptLine :=
  [.ldKey 2 [3, 3, 2, 5], .cmd .check, .wait, .rdEq .status 0xA, .ldVec [7, 4], .cmd .enc, .wait, .rdEq .status 0xA,
   .rdEq (.vout 0) 7, .rdEq (.vout 1) 8]

/-- The ciphertext "HI". -/
theorem test_program_one :
    goesTo (core.run 17 { State.reset with script := expandScript p1 })
      (fun t => !t.failed && t.script.isEmpty) = true := by decide +kernel

/-- The host's two questions of a command word: the decoder gives the row's command, and the next step runs it. -/
theorem test_fetch_word : decodeTableWord 32 1 = some .det ∧
    goesTo (step (State.reset.withFetchWord 32 1)) (fun t => t.regs.statusWord == 0x00000206) = true := by
  decide +kernel

end Sys2Proof.Tests
end

