-- ==== Sys2Proof/Tests/Witnesses.lean ====
section
/-! SUPPORT. Witnesses: for each statement that has hypotheses, a concrete state and operands that meet all of them. -/

namespace Sys2Proof.Tests

open Sys2Proof.Machine Sys2Proof.Claims

/-- A script item is next for the host. -/
def hostState (r : Regs) (op : HostOp) : State := { st r with script := [op], schedule := [.host] }

theorem witness_illegal : illegal 0x00000106 ∧ illegal 0x00000006 ∧ (0x106 : Word).toNat ≥ 256 := by
  refine ⟨?_, ?_, ?_⟩
  · intro i; cases i <;> decide
  · intro i; cases i <;> decide
  · decide

theorem witness_decoded : completesNext (inFlight k2 1) [] ∧ decode (inFlight k2 1).regs.pending = .ok .det := by
  refine ⟨⟨rfl, rfl, .inr ⟨rfl, rfl⟩⟩, by decide⟩

/-- A command in flight and the command unit's turn scheduled. -/
def unitNext (r : Regs) (w : Word) : State := { inFlight r w with schedule := [.unit] }

theorem witness_illegal_in_flight :
    unitScheduled (unitNext k2 0x106) [] ∧ illegal (unitNext k2 0x106).regs.pending :=
  ⟨⟨rfl, rfl, rfl⟩, by intro i; cases i <;> decide⟩

/-- A completion with IE = 1 raises IRQ. -/
theorem witness_completion_raises_irq :
    unitScheduled (unitNext { k2 with ie := true } 1) [] ∧
    goesTo (step (unitNext { k2 with ie := true } 1)) (fun t => t.regs.irq) = true :=
  ⟨⟨rfl, rfl, rfl⟩, by decide +kernel⟩

theorem witness_accept : hostNext (hostState k2 (.access (.write 0x010 4 1))) (.access (.write 0x010 4 1)) ∧
    (hostState k2 (.access (.write 0x010 4 1))).regs.busy = false := ⟨⟨rfl, rfl, .inl rfl⟩, rfl⟩

theorem witness_busy : (k2.accept 1).busy = true := rfl

theorem witness_shape : shape k2 2 ∧ shape k3 3 ∧ shape k4b 4 := by
  refine ⟨⟨?_, ?_, ?_, ?_⟩, ⟨?_, ?_, ?_, ?_⟩, ⟨?_, ?_, ?_, ?_⟩⟩ <;> decide

theorem witness_unit_letters : shape (vec k2 7 25 99 99) 2 ∧ unitDet (vec k2 7 25 99 99) 2 ∧
    lettersOk (vec k2 7 25 99 99) 2 :=
  ⟨⟨by decide, by decide, by decide, by decide⟩, by unfold unitDet; decide +kernel, by unfold lettersOk; decide⟩

theorem witness_not_unit : shape ksing 2 ∧ ¬unitDet ksing 2 :=
  ⟨⟨by decide, by decide, by decide, by decide⟩, by unfold unitDet; decide +kernel⟩

theorem witness_not_letters : shape (vec k2 26 0 0 0) 2 ∧ unitDet (vec k2 26 0 0 0) 2 ∧ ¬lettersOk (vec k2 26 0 0 0) 2 :=
  ⟨⟨by decide, by decide, by decide, by decide⟩, by unfold unitDet; decide +kernel, by unfold lettersOk; decide⟩

theorem witness_dim_bad : dimBad Regs.reset ∧ dimBad { k2 with kcols := 7 } ∧ dimBad { k2 with krows := 1 } := by
  unfold dimBad; decide

theorem witness_nonsquare : nonsquare { k2 with kcols := 3 } := by
  unfold nonsquare dimBad; decide

theorem witness_scalar : Int.gcd (BitVec.toInt (0xFFFFFFEF : Word)) 26 = 1 ∧
    Int.gcd (BitVec.toInt (0x80000000 : Word)) 26 ≠ 1 := by decide +kernel

theorem witness_same_reads : sameReads .enc (vec k2 7 4 0 0) { vec k2 7 4 99 0 with ovr := true } := by
  unfold sameReads sameKey; decide

theorem witness_success_of_adj_and_inv :
    goesTo (exec .adj (st k2)) (fun t => t.regs.errcode == .noError) = true ∧
    goesTo (exec .inv (st k2)) (fun t => t.regs.errcode == .noError) = true ∧
    goesTo (exec .enc (st k2)) (fun t => t.regs.errcode == .noError) = true ∧
    goesTo (exec .dec (st k2)) (fun t => t.regs.errcode == .noError) = true := by decide +kernel

theorem witness_unit_residue : (0 : Int) ≤ 25 ∧ isUnit 25 = true ∧ isUnit 1 = true ∧ isUnit 13 = false := by decide

theorem witness_invertible_matrix : keyInvertible 2 (keyOperand k2) = true ∧ keyInvertible 3 (keyOperand k3) = true := by
  decide +kernel

theorem witness_bus_errors : reserved 0x020 ∧ reserved 0x1FC ∧ ¬reserved 0x01C ∧ ¬reserved 0x040 ∧ ¬reserved 0x11C := by
  unfold reserved; decide

theorem witness_idle_operand : (Reg.key 3 3).accessClass = .busyProtected ∧ k2.busy = false := ⟨rfl, rfl⟩

theorem witness_w1c : BitVec.getLsbD (0x12 : Word) 1 = true ∧ BitVec.getLsbD (0x12 : Word) 4 = true ∧
    BitVec.getLsbD (0x22 : Word) 8 = false := by decide

theorem witness_rst : ({ st k2 with schedule := [.assertRst] } : State).schedule = .assertRst :: [] ∧
    ({ st Regs.reset with rst := true, schedule := [.releaseRst] } : State).rst = true := ⟨rfl, rfl⟩

theorem witness_rst_unit :
    step { inFlight k2 1 with rst := true, schedule := [.unit] } = .next { st Regs.reset with rst := true } := rfl

theorem witness_rst_access : step { hostState Regs.reset .wait with rst := true } = .fault .accessInReset := rfl

theorem witness_ctrl_reset : readReg State.reset.regs .ctrl = 0 ∧ State.reset.regs.scalarIn = 0 := by decide

theorem witness_inv : State.reset.Inv ∧ step State.reset = .next State.reset := by
  refine ⟨⟨⟨?_, ?_, ?_, ?_, ?_, ?_⟩, ?_⟩, rfl⟩
  · decide
  · exact .inl rfl
  · decide
  · decide
  · decide
  · decide
  · decide

theorem witness_overrun :
    hostNext (hostState (k2.accept 1) (.access (.write (Reg.vin 0).off 4 11)))
      (.access (.write (Reg.vin 0).off 4 11)) ∧
    goesTo (step (hostState (k2.accept 1) (.access (.write (Reg.vin 0).off 4 11)))) (fun t => t.regs.ovr) = true :=
  ⟨⟨rfl, rfl, .inl rfl⟩, by decide⟩

theorem witness_overrun_cleared :
    hostNext (hostState { k2 with ovr := true } (.access (.write 0x00C 4 0x10))) (.access (.write 0x00C 4 0x10)) ∧
    goesTo (step (hostState { k2 with ovr := true } (.access (.write 0x00C 4 0x10)))) (fun t => !t.regs.ovr) = true :=
  ⟨⟨rfl, rfl, .inl rfl⟩, by decide⟩

theorem witness_in_flight_step :
    goesTo (step (hostState (k2.accept 1) (.access (.write (Reg.vin 0).off 4 11)))) (fun t => t.regs.busy) = true ∧
    (hostState (k2.accept 1) (.access (.write (Reg.vin 0).off 4 11))).rst = false := by decide

theorem witness_completes : (inFlight k2 1).rst = false ∧ (inFlight k2 1).regs.busy = true ∧
    Turn.assertRst ∉ (inFlight k2 1).schedule := by decide

theorem witness_result_changes :
    goesTo (step (inFlight k2 1)) (fun t => t.regs.det == 9) = true ∧ (inFlight k2 1).regs.det = 0 := by
  decide +kernel

theorem witness_pending_idle : k2.busy = false ∧
    goesTo (step { st k2 with regs := { k2 with pending := 0xFFFFFFFF } }) (fun t => t.regs.pending == 0xFFFFFFFF)
      = true := by decide

theorem witness_early_read :
    goesTo (core.run 1 { inFlight k2 1 with script := [.access (.read (Reg.det).off 4)], schedule := [.unit] })
      (fun t => t.regs.det == 9) = true := by decide +kernel

theorem witness_wait : hostNext (hostState k2 .wait) .wait ∧ (hostState k2 .wait).script = .wait :: [] :=
  ⟨⟨rfl, rfl, .inl rfl⟩, rfl⟩

theorem witness_load_key :
    ([-1, 3, 2, 0xFFFFFFFF] : List Int).length = 2 * 2 ∧
    (List.replicate 16 (-1 : Int)).length = 4 * 4 ∧ ([4294967295] : List Int).length = 1 * 1 ∧
    (∀ v ∈ ([-1, 3, 2, 0xFFFFFFFF, -(2 ^ 31)] : List Int), -(2 ^ 31) ≤ v ∧ v < 2 ^ 32) ∧
    ({ State.reset with script := (ScriptLine.ldKey 2 [-1, 3, 2, 0xFFFFFFFF]).expand } : State).schedule = [] := by
  decide

theorem witness_vector_out_of_range : shape (vec k2 0 26 0 0) 2 ∧ 25 < (Quad.get (vec k2 0 26 0 0).vin 1).toNat :=
  ⟨⟨by decide, by decide, by decide, by decide⟩, by decide⟩

theorem witness_unscheduled : (inFlight k2 1).schedule = [] ∧ (st k2).schedule = [] := ⟨rfl, rfl⟩

end Sys2Proof.Tests
end

namespace Sys2Proof.Machine

open Sys2Proof.Claims

/-! ## What one step can do -/

/-- The map is one-to-one: an offset that reaches a register is that register's own (10_state.md R20). -/
theorem off_of_regAt {off : Nat} {g : Reg} (h : regAt off = some g) : off = g.off := by
  have hmap : ∀ off < 0x120, ∀ g ∈ regAt off, off = g.off := by decide +kernel
  refine hmap off ?_ g h
  by_contra hoff
  have hnone : regAt off = none := by
    unfold regAt
    grind
  rw [hnone] at h
  cases h

/-- STATUS is the only register of its class (20_memory.md R57). -/
theorem accessClass_eq_status_iff {g : Reg} : g.accessClass = .status ↔ g = .status := by
  cases g <;> simp [Reg.accessClass]

/-- CMD is the only register of its class (R57). -/
theorem accessClass_eq_command_iff {g : Reg} : g.accessClass = .command ↔ g = .cmd := by
  cases g <;> simp [Reg.accessClass]

/-- The step that is the host's next item, out of reset, always goes on (30_encoding.md R80). -/
theorem step_of_hostNext {s : State} {op : HostOp} (h : hostNext s op) :
    step s = .next (runHostOp op s.script.tail { s with schedule := s.schedule.tail }) := by
  obtain ⟨hrst, hop, hturn⟩ := h
  obtain ⟨rest, hscript⟩ := List.head?_eq_some_iff.1 hop
  obtain ⟨turn, turns, hstep, hsched⟩ := step_eq_takeTurn s
  have hhost : turn = .host ∧ turns = s.schedule.tail := by
    rcases hsched with hs | ⟨hs, rfl, rfl⟩
    · simpa [hs] using hturn
    · simpa [hs, unscheduledTurn] using hturn
  obtain ⟨rfl, rfl⟩ := hhost
  simp [hstep, takeTurn, hostTurn, hscript, hrst]

/-- The host's next write, out of reset, is `writeReg` on the registers (20_memory.md R57). -/
theorem step_of_hostNext_write {s : State} {g : Reg} {v : Word} (h : hostNext s (.access (.write g.off 4 v))) :
    ∃ t, step s = .next t ∧ t.regs = writeReg s.regs g v :=
  ⟨_, step_of_hostNext h, by simp [runHostOp]⟩

/-- Everything one step can do to the registers: reset them, leave them, make the host's legal write, or complete
the command in flight with success or with an error (10_state.md R42; 20_memory.md R60; 40_command_lifecycle.md R93).
In all cases but the first RST is released afterwards. -/
inductive StepEffect (s t : State) : Prop
  | reset (hnext : resetNext s) (hregs : t.regs = Regs.reset)
  | idle (hrst : t.rst = false) (hregs : t.regs = s.regs)
  | write (g : Reg) (v : Word) (hnext : hostNext s (.access (.write g.off 4 v))) (hrst : t.rst = false)
      (hregs : t.regs = writeReg s.regs g v)
  | success (rest : List Turn) (i : Instr) (w : Result) (hnext : completesNext s rest)
      (hdec : decode s.regs.pending = .ok i) (hw : outcomeOf i s.regs = .ok w) (hrst : t.rst = false)
      (hregs : t.regs = s.regs.succeed w)
  | failure (rest : List Turn) (e : ErrCode) (hnext : completesNext s rest) (hrst : t.rst = false)
      (hregs : t.regs = s.regs.fail e)

/-- Releasing RST while it is released is no event (log entry 9). -/
theorem takeTurn_releaseRst_of_released {s : State} (h : s.rst = false) : takeTurn .releaseRst s = .next s := by
  simp [takeTurn, h]

theorem stepEffect_of_unitTurn {s t : State} {rest : List Turn}
    (hturn : s.schedule = .unit :: rest ∨ s.schedule = [] ∧ rest = [])
    (h : unitTurn { s with schedule := rest } = .next t) : StepEffect s t := by
  rcases unitTurn_cases { s with schedule := rest } with
    ⟨hrst, he⟩ | ⟨hrst, -, he⟩ | ⟨hrst, hbusy, ⟨i, hdec, he⟩ | ⟨e, -, he⟩⟩ <;> rw [he] at h
  · cases h
    exact .reset (.inr hrst) rfl
  · cases h
    exact .idle hrst rfl
  · rw [exec_eq_complete] at h
    rcases complete_cases { s with schedule := rest } (outcomeOf i s.regs) with ⟨w, hw, hc⟩ | ⟨e, -, hc⟩ <;>
      cases hc.symm.trans h
    · exact .success rest i w ⟨hrst, hbusy, hturn⟩ hdec hw hrst rfl
    · exact .failure rest e ⟨hrst, hbusy, hturn⟩ hrst rfl
  · cases h
    exact .failure rest .illegalCmd ⟨hrst, hbusy, hturn⟩ hrst rfl

theorem stepEffect_of_hostTurn {s t : State} {rest : List Turn}
    (hturn : s.schedule.head? = some .host ∨ s.schedule = [] ∧ s.regs.busy = false)
    (h : hostTurn { s with schedule := rest } = .next t) : StepEffect s t := by
  rcases hostTurn_cases { s with schedule := rest } with
    ⟨-, hrst, he⟩ | ⟨-, hrst, he⟩ | ⟨op, ops, hscript, ⟨-, he⟩ | ⟨hrst, he⟩⟩ <;> cases he.symm.trans h
  · exact .reset (.inr hrst) rfl
  · exact .idle hrst rfl
  · have hrst' : (runHostOp op ops { s with schedule := rest }).rst = false := by simpa using hrst
    rcases runHostOp_regs op ops { s with schedule := rest } with hregs | ⟨a, rfl, hregs⟩
    · exact .idle hrst' hregs
    · rcases access_cases s.regs a with ha | ⟨off, v, g, rfl, hg, ha⟩
      · exact .idle hrst' (hregs.trans ha)
      · obtain rfl := off_of_regAt hg
        exact .write g v ⟨hrst, by rw [show s.script = _ from hscript]; rfl, hturn⟩ hrst' (by rw [hregs]; simp)

/-- Every step that goes on has one of the five effects. -/
theorem step_effect {s t : State} (h : step s = .next t) : StepEffect s t := by
  obtain ⟨turn, rest, hstep, hturn⟩ := step_eq_takeTurn s
  rw [hstep] at h
  cases turn with
  | host =>
    refine stepEffect_of_hostTurn ?_ h
    rcases hturn with hs | ⟨hs, -, hu⟩
    · exact .inl (by rw [hs]; rfl)
    · refine .inr ⟨hs, ?_⟩
      by_contra hb
      simp [unscheduledTurn, hb] at hu
  | unit =>
    exact stepEffect_of_unitTurn (hturn.imp_right fun hs => ⟨hs.1, hs.2.1⟩) h
  | assertRst =>
    cases h
    rcases hturn with hs | ⟨-, -, hu⟩
    · exact .reset (.inl (by rw [hs]; rfl)) rfl
    · unfold unscheduledTurn at hu
      split at hu <;> cases hu
  | releaseRst =>
    cases hrst : s.rst
    · cases (takeTurn_releaseRst_of_released (s := { s with schedule := rest }) hrst).symm.trans h
      exact .idle hrst rfl
    · exact .reset (.inr hrst) (by cases h; simp [hrst])

/-! ## What a command's success commits -/

/-- The results a success of each command can commit: its own register or array of 30_encoding.md R79, reduced
mod 26, and for MODINV the inverse of a unit (41_matrix_algebra.md R120 to R124; 42_block_codec.md R142, R143). -/
inductive Commits : Instr → Result → Prop
  | nop : Commits .nop .nothing
  | det (x : Int) : Commits .det (.det (toRes (mod26 x)))
  | modinv (x : Int) (hx : isUnit (mod26 x) = true) : Commits .modinv (.scalarOut (toRes (inv26 (mod26 x))))
  | adj (n : Nat) (A : Mat) : Commits .adj (.adj (resGrid n A))
  | inv (n : Nat) (A : Mat) : Commits .inv (.inv (resGrid n A))
  | check (b : Bool) : Commits .check (.invertible b)
  | enc (n : Nat) (f : Nat → Int) : Commits .enc (.vout (resVec n f))
  | dec (n : Nat) (f : Nat → Int) : Commits .dec (.vout (resVec n f))

theorem codecOutcome_ok_form {r : Regs} {B : Nat → Mat → Mat} {w : Result} (h : codecOutcome r B = .ok w) :
    ∃ n f, w = .vout (resVec n f) := by
  unfold codecOutcome at h
  split at h
  · cases h
  · split at h <;> cases h
    exact ⟨_, _, rfl⟩

theorem outcomeOf_commits {i : Instr} {r : Regs} {w : Result} (h : outcomeOf i r = .ok w) : Commits i w := by
  cases i with
  | nop =>
    cases h
    exact .nop
  | det =>
    simp only [outcomeOf, detOutcome] at h
    split at h <;> cases h
    exact .det _
  | modinv =>
    simp only [outcomeOf, modinvOutcome] at h
    split_ifs at h with hunit
    cases h
    exact .modinv _ hunit
  | adj =>
    simp only [outcomeOf, adjOutcome] at h
    split at h <;> cases h
    exact .adj _ _
  | inv =>
    simp only [outcomeOf, invOutcome] at h
    split at h
    · cases h
    · split_ifs at h
      cases h
      exact .inv _ _
  | check =>
    simp only [outcomeOf, checkOutcome] at h
    split_ifs at h <;> cases h <;> exact .check _
  | enc =>
    simp only [outcomeOf, encOutcome] at h
    obtain ⟨n, f, rfl⟩ := codecOutcome_ok_form h
    exact .enc n f
  | dec =>
    simp only [outcomeOf, decOutcome] at h
    obtain ⟨n, f, rfl⟩ := codecOutcome_ok_form h
    exact .dec n f

theorem Commits.invertible_eq {i : Instr} {w : Result} (h : Commits i w) (hi : i ≠ .check) (r : Regs) :
    (r.succeed w).invertible = r.invertible := by
  cases h with
  | check => exact absurd rfl hi
  | _ => rfl

/-! ## What a host write leaves of the results -/

theorem sameResults_refl (r : Regs) : sameResults r r := ⟨rfl, rfl, rfl, rfl, rfl, rfl⟩

theorem sameResults_fail (r : Regs) (e : ErrCode) : sameResults r (r.fail e) := ⟨rfl, rfl, rfl, rfl, rfl, rfl⟩

theorem sameResults_storeReg (r : Regs) (g : Reg) (v : Word) : sameResults r (storeReg r g v) := by
  constructor <;> simp

/-- No host write reaches a result register or INVERTIBLE (20_memory.md R57). -/
theorem sameResults_writeReg (r : Regs) (g : Reg) (v : Word) : sameResults r (writeReg r g v) := by
  rcases writeReg_cases r g v with ⟨-, h⟩ | ⟨-, h⟩ | ⟨-, -, h⟩ | ⟨-, -, h⟩ | ⟨-, -, h⟩ | ⟨-, -, h⟩ <;> rw [h]
  case inr.inr.inr.inl => exact sameResults_storeReg r g v
  all_goals exact ⟨rfl, rfl, rfl, rfl, rfl, rfl⟩

/-! ## The invariant -/

theorem isResidue_resVec (n : Nat) (f : Nat → Int) (k : Fin 4) : isResidue ((resVec n f).get k) := by
  rw [resVec_get]
  split
  · exact toRes_mod26_le _
  · decide

theorem isResidue_resGrid (n : Nat) (A : Mat) (i j : Fin 4) : isResidue (Grid.get (resGrid n A) i j) := by
  rw [resGrid_get]
  split
  · exact toRes_mod26_le _
  · decide

/-- The inverse of a unit is a unit in [1, 25], and SCALAR_OUT stores it whole (10_state.md R36; R112). -/
theorem isScalarResult_toRes_inv26 {x : Int} (h : isUnit (mod26 x) = true) :
    isScalarResult (toRes (inv26 (mod26 x))) := by
  obtain ⟨hlo, hhi, -, hunit⟩ := inv26_spec x h
  have hval : ((toRes (inv26 (mod26 x))).toNat : Int) = inv26 (mod26 x) := toRes_toNat (by omega) (by omega)
  exact .inr ⟨by omega, by rw [hval]; exact hunit⟩

theorem Regs.inv_reset : Regs.reset.Inv where
  det := by decide
  scalarOut := .inl rfl
  adj := by decide
  inv := by decide
  vout := by decide
  idleDone := by decide

/-- The invariant speaks of the results and of BUSY and DONE alone. -/
theorem Regs.Inv.of_sameResults {r q : Regs} (hr : r.Inv) (h : sameResults r q)
    (hdone : q.busy = true → q.done = false) : q.Inv where
  det := h.det ▸ hr.det
  scalarOut := h.scalarOut ▸ hr.scalarOut
  adj := h.adj ▸ hr.adj
  inv := h.inv ▸ hr.inv
  vout := h.vout ▸ hr.vout
  idleDone := hdone

/-- A host write keeps DONE at 0 while a command is in flight: it only clears DONE, and an acceptance does
(10_state.md R28; 40_command_lifecycle.md R91). -/
theorem Regs.Inv.writeReg {r : Regs} (hr : r.Inv) (g : Reg) (v : Word) : (writeReg r g v).Inv := by
  refine hr.of_sameResults (sameResults_writeReg r g v) ?_
  have hdone := hr.idleDone
  rcases writeReg_cases r g v with ⟨-, h⟩ | ⟨-, h⟩ | ⟨-, -, h⟩ | ⟨-, -, h⟩ | ⟨-, -, h⟩ | ⟨-, -, h⟩ <;>
    rw [h] <;> simp_all

theorem Regs.Inv.fail {r : Regs} (hr : r.Inv) (e : ErrCode) : (r.fail e).Inv :=
  hr.of_sameResults (sameResults_fail r e) (by simp)

/-- A success writes one result, in range, and lowers BUSY (10_state.md R35 to R39). -/
theorem Regs.Inv.succeed {r : Regs} (hr : r.Inv) {i : Instr} {w : Result} (h : Commits i w) :
    (r.succeed w).Inv := by
  obtain ⟨hdet, hscalar, hadj, hinv, hvout, -⟩ := hr
  cases h with
  | nop => exact ⟨hdet, hscalar, hadj, hinv, hvout, by simp⟩
  | det x => exact ⟨toRes_mod26_le x, hscalar, hadj, hinv, hvout, by simp⟩
  | modinv x hx => exact ⟨hdet, isScalarResult_toRes_inv26 hx, hadj, hinv, hvout, by simp⟩
  | adj n A => exact ⟨hdet, hscalar, isResidue_resGrid n A, hinv, hvout, by simp⟩
  | inv n A => exact ⟨hdet, hscalar, hadj, isResidue_resGrid n A, hvout, by simp⟩
  | check b => exact ⟨hdet, hscalar, hadj, hinv, hvout, by simp⟩
  | enc n f => exact ⟨hdet, hscalar, hadj, hinv, isResidue_resVec n f, by simp⟩
  | dec n f => exact ⟨hdet, hscalar, hadj, hinv, isResidue_resVec n f, by simp⟩

theorem StepEffect.preserves_inv {s t : State} (h : StepEffect s t) (hs : s.Inv) : t.Inv := by
  cases h with
  | reset _ hregs => exact ⟨hregs ▸ Regs.inv_reset, fun _ => hregs⟩
  | idle hrst hregs => exact ⟨hregs ▸ hs.regs, by simp [hrst]⟩
  | write g v _ hrst hregs => exact ⟨hregs ▸ hs.regs.writeReg g v, by simp [hrst]⟩
  | success rest i w _ _ hw hrst hregs => exact ⟨hregs ▸ hs.regs.succeed (outcomeOf_commits hw), by simp [hrst]⟩
  | failure rest e _ hrst hregs => exact ⟨hregs ▸ hs.regs.fail e, by simp [hrst]⟩

/-! ## OVR -/

/-- A register whose write while BUSY = 1 is dropped (20_memory.md R58; 40_command_lifecycle.md R92). -/
def Reg.droppedWhileBusy (g : Reg) : Prop := g.accessClass = .busyProtected ∨ g = .cmd

/-- OVR after a host write: 1 exactly where the write was dropped, or where it was 1 and no STATUS write cleared it
(10_state.md R31). -/
theorem writeReg_ovr_iff (r : Regs) (g : Reg) (v : Word) :
    (writeReg r g v).ovr = true ↔
      (r.busy = true ∧ g.droppedWhileBusy) ∨ (r.ovr = true ∧ ¬(g = .status ∧ v.getLsbD 4 = true)) := by
  rw [Reg.droppedWhileBusy, ← accessClass_eq_status_iff, ← accessClass_eq_command_iff]
  rcases writeReg_cases r g v with ⟨hg, h⟩ | ⟨hg, h⟩ | ⟨hg, hb, h⟩ | ⟨hg, hb, h⟩ | ⟨hg, hb, h⟩ | ⟨hg, hb, h⟩
  · simp [h, hg]
  · simp [h, hg]
  · simp [h, hg, hb]
  · simp [h, hg, hb]
  · simp [h, hg, hb]
  · simp [h, hg, hb]

/-- OVR rises only by a dropped write (10_state.md R31). -/
theorem StepEffect.ovr_rises {s t : State} (h : StepEffect s t) (hs : s.regs.ovr = false) (ht : t.regs.ovr = true) :
    s.regs.busy = true ∧ ∃ (g : Reg) (v : Word), g.droppedWhileBusy ∧ hostNext s (.access (.write g.off 4 v)) := by
  cases h with
  | write g v hnext _ hregs =>
    rw [hregs, writeReg_ovr_iff] at ht
    rcases ht with ⟨hbusy, hg⟩ | ⟨hovr, -⟩
    · exact ⟨hbusy, g, v, hg, hnext⟩
    · simp [hs] at hovr
  | reset _ hregs => simp [hregs, Regs.reset] at ht
  | idle _ hregs => simp [hregs, hs] at ht
  | success _ _ _ _ _ _ _ hregs => simp [hregs, hs] at ht
  | failure _ _ _ _ hregs => simp [hregs, hs] at ht

/-- OVR falls only by reset or by a STATUS write with bit [4] = 1 (10_state.md R31). -/
theorem StepEffect.ovr_falls {s t : State} (h : StepEffect s t) (hs : s.regs.ovr = true) (ht : t.regs.ovr = false) :
    resetNext s ∨ ∃ v : Word, v.getLsbD 4 = true ∧ hostNext s (.access (.write Reg.status.off 4 v)) := by
  cases h with
  | write g v hnext _ hregs =>
    have hclear : g = .status ∧ v.getLsbD 4 = true := by
      by_contra hkeep
      have := (writeReg_ovr_iff s.regs g v).2 (.inr ⟨hs, hkeep⟩)
      simp [← hregs, ht] at this
    obtain ⟨rfl, hbit⟩ := hclear
    exact .inr ⟨v, hbit, hnext⟩
  | reset hnext _ => exact .inl hnext
  | idle _ hregs => simp [hregs, hs] at ht
  | success _ _ _ _ _ _ _ hregs => simp [hregs, hs] at ht
  | failure _ _ _ _ hregs => simp [hregs, hs] at ht

/-! ## PENDING -/

/-- The registers with another word in PENDING, which no read shows (10_state.md R41). -/
def Regs.withPending (r : Regs) (w : Word) : Regs := { r with pending := w }

/-- The machine with another word in PENDING. -/
def State.withPending (s : State) (w : Word) : State := { s with regs := s.regs.withPending w }

@[simp] theorem Regs.withPending_busy (r : Regs) (w : Word) : (r.withPending w).busy = r.busy := rfl
@[simp] theorem State.withPending_regs (s : State) (w : Word) : (s.withPending w).regs = s.regs.withPending w := rfl
@[simp] theorem State.withPending_rst (s : State) (w : Word) : (s.withPending w).rst = s.rst := rfl
@[simp] theorem State.withPending_resp (s : State) (w : Word) : (s.withPending w).resp = s.resp := rfl
@[simp] theorem State.withPending_failed (s : State) (w : Word) : (s.withPending w).failed = s.failed := rfl
@[simp] theorem State.withPending_script (s : State) (w : Word) : (s.withPending w).script = s.script := rfl
@[simp] theorem State.withPending_schedule (s : State) (w : Word) : (s.withPending w).schedule = s.schedule := rfl
@[simp] theorem holdReset_withPending (s : State) (w : Word) : holdReset (s.withPending w) = holdReset s := rfl

/-- The two states agree but for PENDING, and on it too where a command is in flight (R41). -/
def AgreeButPending (t t' : State) : Prop :=
  t' = t.withPending t'.regs.pending ∧ (t.regs.busy = true → t'.regs.pending = t.regs.pending)

theorem agreeButPending_refl (t : State) : AgreeButPending t t := ⟨rfl, fun _ => rfl⟩

theorem agreeButPending_withPending {t : State} (w : Word) (h : t.regs.busy = true → w = t.regs.pending) :
    AgreeButPending t (t.withPending w) :=
  ⟨rfl, h⟩

theorem agreeButPending_of_idle {t : State} (w : Word) (h : t.regs.busy = false) :
    AgreeButPending t (t.withPending w) :=
  agreeButPending_withPending w (by simp [h])

/-- A host write to an idle block stores nothing that depends on PENDING; an acceptance overwrites it. -/
theorem writeReg_withPending {r : Regs} (h : r.busy = false) (g : Reg) (v w : Word) :
    writeReg (r.withPending w) g v = (writeReg r g v).withPending (if g = .cmd then v else w) := by
  cases g <;>
    simp [writeReg, Reg.accessClass, h, Regs.accept, Regs.clearStatus, storeReg, Regs.setCtrl, Regs.withPending]

/-- Of the host's writes to an idle block only an acceptance raises BUSY (40_command_lifecycle.md R91). -/
theorem writeReg_busy_of_idle {r : Regs} (h : r.busy = false) (g : Reg) (v : Word)
    (hbusy : (writeReg r g v).busy = true) : g = .cmd ∧ (writeReg r g v).pending = v := by
  rcases writeReg_cases r g v with ⟨-, e⟩ | ⟨-, e⟩ | ⟨-, -, e⟩ | ⟨-, -, e⟩ | ⟨-, -, e⟩ | ⟨hg, -, e⟩
  case inr.inr.inr.inr.inr => exact ⟨accessClass_eq_command_iff.1 hg, by rw [e]; rfl⟩
  all_goals simp [e, h] at hbusy

theorem access_read_withPending (r : Regs) (off size : Nat) (w : Word) :
    access (r.withPending w) (.read off size) = ((access r (.read off size)).1, r.withPending w) := by
  cases htarget : target off size <;> simp [access, htarget, Regs.withPending]

/-- One access to an idle block answers and does the same whatever PENDING holds, and an acceptance overwrites it. -/
theorem access_withPending {r : Regs} (h : r.busy = false) (a : Access) (w : Word) :
    ∃ w', access (r.withPending w) a = ((access r a).1, (access r a).2.withPending w') ∧
      ((access r a).2.busy = true → w' = (access r a).2.pending) := by
  cases a with
  | read off size => exact ⟨w, by simp [access_read_withPending], by simp [h]⟩
  | write off size v =>
    cases htarget : target off size with
    | none => exact ⟨w, by simp [access, htarget], by simp [access, htarget, h]⟩
    | some g =>
      refine ⟨if g = .cmd then v else w, by simp [access, htarget, writeReg_withPending h], fun hbusy => ?_⟩
      simp only [access, htarget] at hbusy ⊢
      obtain ⟨hg, hpending⟩ := writeReg_busy_of_idle h g v hbusy
      rw [if_pos hg, hpending]

theorem runHostOp_withPending {s : State} (h : s.regs.busy = false) (op : HostOp) (rest : List HostOp) (w : Word) :
    AgreeButPending (runHostOp op rest s) (runHostOp op rest (s.withPending w)) := by
  cases op with
  | access a =>
    obtain ⟨w', haccess, hbusy⟩ := access_withPending h a w
    have hrun : runHostOp (.access a) rest (s.withPending w) = (runHostOp (.access a) rest s).withPending w' := by
      simp only [runHostOp, haccess, State.withPending]
    exact hrun ▸ agreeButPending_withPending w' hbusy
  | expect off v =>
    have hrun : runHostOp (.expect off v) rest (s.withPending w) = (runHostOp (.expect off v) rest s).withPending w := by
      simp only [runHostOp, access_read_withPending, State.withPending]
    exact hrun ▸ agreeButPending_of_idle w h
  | wait => exact agreeButPending_of_idle (t := runHostOp .wait rest s) w h
  | waitDone => exact agreeButPending_of_idle (t := runHostOp .waitDone rest s) w h

/-- Any turn at an idle block goes the same way whatever PENDING holds. -/
theorem takeTurn_withPending {s t : State} (h : s.regs.busy = false) (turn : Turn) (w : Word)
    (ht : takeTurn turn s = .next t) :
    ∃ t', takeTurn turn (s.withPending w) = .next t' ∧ AgreeButPending t t' := by
  cases turn with
  | host =>
    rcases hostTurn_cases s with ⟨hscript, hrst, he⟩ | ⟨hscript, hrst, he⟩ | ⟨op, rest, hscript, ⟨-, he⟩ | ⟨hrst, he⟩⟩ <;>
      cases he.symm.trans ht
    · exact ⟨holdReset s, by simp [takeTurn, hostTurn, hscript, hrst], agreeButPending_refl _⟩
    · exact ⟨_, by simp [takeTurn, hostTurn, hscript, hrst], agreeButPending_of_idle w h⟩
    · exact ⟨_, by simp [takeTurn, hostTurn, hscript, hrst], runHostOp_withPending h op rest w⟩
  | unit =>
    rcases unitTurn_cases s with ⟨hrst, he⟩ | ⟨hrst, -, he⟩ | ⟨-, hbusy, -⟩
    · cases he.symm.trans ht
      exact ⟨holdReset s, by simp [takeTurn, unitTurn, hrst], agreeButPending_refl _⟩
    · cases he.symm.trans ht
      exact ⟨_, by simp [takeTurn, unitTurn, hrst, h], agreeButPending_of_idle w h⟩
    · simp [h] at hbusy
  | assertRst =>
    cases ht
    exact ⟨_, rfl, agreeButPending_refl _⟩
  | releaseRst =>
    cases hrst : s.rst
    · cases (takeTurn_releaseRst_of_released hrst).symm.trans ht
      exact ⟨_, takeTurn_releaseRst_of_released hrst, agreeButPending_of_idle w h⟩
    · exact ⟨t, by simp [← ht, takeTurn, hrst], agreeButPending_refl t⟩

/-- Any step of an idle block goes the same way whatever PENDING holds. -/
theorem step_withPending {s t : State} (h : s.regs.busy = false) (w : Word) (ht : step s = .next t) :
    ∃ t', step (s.withPending w) = .next t' ∧ AgreeButPending t t' := by
  cases hs : s.schedule with
  | nil =>
    rw [step_unscheduled s hs] at ht
    rw [step_unscheduled (s.withPending w) hs]
    exact takeTurn_withPending h (unscheduledTurn s) w ht
  | cons turn rest =>
    rw [step_scheduled s turn rest hs] at ht
    rw [step_scheduled (s.withPending w) turn rest hs]
    exact takeTurn_withPending (s := { s with schedule := rest }) h turn w ht

/-! ## The operands -/

/-- The key-shape checks pass exactly where the key has a dimension (10_state.md R43; 40_command_lifecycle.md R97). -/
theorem keyShape_ok_iff_shape (r : Regs) (n : Nat) : keyShape r = .ok n ↔ shape r n := by
  rw [keyShape_ok_iff]
  constructor
  · rintro ⟨h2, h4, heq, hn⟩
    exact ⟨h2, h4, hn, heq ▸ hn⟩
  · rintro ⟨h2, h4, hrows, hcols⟩
    exact ⟨h2, h4, BitVec.eq_of_toNat_eq (hrows.trans hcols.symm), hrows⟩

/-- The codec's transform fails on a block with an entry above 25 (10_state.md R45; 42_block_codec.md R140, R141). -/
theorem codecOutcome_error_of_not_letter {r : Regs} {n : Nat} {k : Fin 4} (hshape : shape r n) (hk : k.val < n)
    (hbig : 25 < (Quad.get r.vin k).toNat) (B : Nat → Mat → Mat) :
    ∃ e, codecOutcome r B = .error e ∧ e ≠ .noError := by
  have hn := (keyShape_ok_iff_shape r n).2 hshape
  cases hunit : keyInvertible n (keyOperand r)
  · exact ⟨.keyNotInvertible, by simp [codecOutcome, codecKey, hn, hunit], by decide⟩
  · have hbad : inputCheck r n ≠ .ok () := by
      intro hok
      have := (inputCheck_ok_iff r n).1 hok k.val hk
      rw [vecOperand_apply] at this
      omega
    cases hcheck : inputCheck r n with
    | ok u => exact absurd hcheck hbad
    | error e =>
      exact ⟨e, by simp [codecOutcome, codecKey, hn, hunit, hcheck], by simp [inputCheck_error r n e hcheck]⟩

/-! ## STATUS -/

/-- The W1C bits of a written word (10_state.md R28, R31). -/
theorem and_w1cMask (v : Word) :
    v &&& 0x12 = (bif v.getLsbD 1 then 0x2 else 0) ||| (bif v.getLsbD 4 then 0x10 else 0) := by
  cases h1 : v.getLsbD 1 <;> cases h4 : v.getLsbD 4 <;> ext k hk <;> interval_cases k <;> simp_all

/-- Masking STATUS with the W1C bits of a word clears DONE and OVR and no other field (R33). -/
theorem statusBits_and_not_w1c (b d e i o : Bool) (c : BitVec 4) (v : Word) :
    statusBits b d e i o c &&& ~~~(v &&& 0x12) =
      statusBits b (d && !v.getLsbD 1) e i (o && !v.getLsbD 4) c := by
  rw [and_w1cMask]
  generalize v.getLsbD 1 = clearDone
  generalize v.getLsbD 4 = clearOvr
  revert b d e i o c clearDone clearOvr
  decide +kernel

theorem readReg_clearStatus (r : Regs) (v : Word) {g : Reg} (hg : g ≠ .status) :
    readReg (r.clearStatus v) g = readReg r g := by
  cases g with
  | status => exact absurd rfl hg
  | _ => rfl

theorem access_write_status (r : Regs) (v : Word) :
    access r (.write 0x00C 4 v) = (.written, r.clearStatus v) :=
  access_write_off r .status v

theorem errNumber_eq_code (e : ErrCode) : errNumber e = e.code := by
  cases e <;> rfl

end Sys2Proof.Machine

namespace Sys2Proof.Proofs

open Sys2Proof.Machine Sys2Proof.Claims

/-- Settles O41, by the case analysis of what one step can do. -/
theorem everyStepKeepsResultsInRange : Obligations.EveryStepKeepsResultsInRange :=
  fun _ _ hs h => (step_effect h).preserves_inv hs

/-- Settles O33: the write is `clearStatus`, which is the mask on STATUS and is not seen by any other register. -/
theorem statusWritesClearOnlyDoneAndOvr : Obligations.StatusWritesClearOnlyDoneAndOvr := by
  intro r v
  simp only [access_write_status]
  exact ⟨statusBits_reserved .., trivial, (statusBits_and_not_w1c ..).symm, fun _ hg => readReg_clearStatus r v hg⟩

/-- Settles O43, by the case analysis of what one step can do: only a success writes a result. -/
theorem resultsChangeOnlyAtCompletion : Obligations.ResultsChangeOnlyAtCompletion := by
  intro s t h
  cases step_effect h with
  | reset hnext _ => exact .inr (.inl hnext)
  | idle _ hregs => exact .inl (hregs ▸ sameResults_refl s.regs)
  | write g v _ _ hregs => exact .inl (hregs ▸ sameResults_writeReg s.regs g v)
  | success rest i w hnext hdec hw _ hregs =>
    rw [hregs]
    exact .inr (.inr ⟨i, rest, hnext, hdec, by simp, by simp, by simp,
      fun hi => (outcomeOf_commits hw).invertible_eq hi s.regs⟩)
  | failure rest e _ _ hregs => exact .inl (hregs ▸ sameResults_fail s.regs e)

/-- Settles O44: every clause is `writeReg_ovr_iff` at the one step that can change OVR, a host write. -/
theorem overrunIsStickyUntilCleared : Obligations.OverrunIsStickyUntilCleared := by
  refine ⟨fun s t h => (step_effect h).ovr_rises, fun s t h => (step_effect h).ovr_falls, ?_, ?_, rfl⟩
  · intro s g v hg hbusy hnext
    obtain ⟨t, ht, hregs⟩ := step_of_hostNext_write hnext
    exact ⟨t, ht, by rw [hregs]; exact (writeReg_ovr_iff s.regs g v).2 (.inl ⟨hbusy, hg⟩)⟩
  · intro s v hbit hnext
    obtain ⟨t, ht, hregs⟩ := step_of_hostNext_write (g := .status) hnext
    refine ⟨t, ht, ?_⟩
    rw [hregs, ← Bool.not_eq_true, writeReg_ovr_iff]
    simp [Reg.droppedWhileBusy, Reg.accessClass, hbit]

/-- Settles O48: each turn at an idle block commutes with replacing PENDING. -/
theorem pendingIsUnobservableWhileIdle : Obligations.PendingIsUnobservableWhileIdle :=
  fun s w hidle => ⟨readReg_withPending s.regs w, fun _ ht => step_withPending hidle w ht⟩

/-- Settles O53: the codec's input check, or its key check before it, stops a block with an entry above 25. -/
theorem vectorOperandIsTheUnsignedBlock : Obligations.VectorOperandIsTheUnsignedBlock := by
  refine ⟨vecOperand_apply, fun s n k hshape hk hbig i hi => ?_⟩
  have hfail : ∃ e, outcomeOf i s.regs = .error e ∧ e ≠ .noError := by
    simp only [List.mem_cons, List.not_mem_nil, or_false] at hi
    rcases hi with rfl | rfl
    · exact codecOutcome_error_of_not_letter hshape hk hbig fun _ A => A
    · exact codecOutcome_error_of_not_letter hshape hk hbig invMat
  obtain ⟨e, he, hne⟩ := hfail
  exact ⟨{ s with regs := s.regs.fail e }, by rw [exec_eq_complete, he, complete_error], hne, rfl⟩

/-- Settles O34, by the field lemmas of `statusBits`. -/
theorem statusWordShowsTheFlags : Obligations.StatusWordShowsTheFlags := by
  intro r
  rw [readReg_status, errNumber_eq_code]
  refine ⟨statusBits_busy .., statusBits_done .., ?_, statusBits_invertible .., statusBits_ovr .., statusBits_code ..⟩
  rw [statusBits_err, statusBits_code]
  rfl

/-- Settles O36: the accesses are those at the offsets of ID, PARAM and CMD, which read as constants. -/
theorem constantRegistersNeverChange : Obligations.ConstantRegistersNeverChange :=
  fun r v => ⟨access_read_off r .id, access_write_off r .id v, access_read_off r .param, access_write_off r .param v,
    access_read_off r .cmd⟩

/-- Settles O52: the operand is `BitVec.toInt` of the register. -/
theorem keyOperandIsTheSignedKey : Obligations.KeyOperandIsTheSignedKey := by
  intro r i j
  rw [keyOperand_apply]
  generalize Grid.get r.key i j = w
  have hlow := w.le_toInt
  have hhigh := w.toInt_le
  refine ⟨?_, rfl, hlow, hhigh⟩
  rw [BitVec.toInt_eq_toNat_cond]
  split_ifs <;> omega

end Sys2Proof.Proofs

namespace Sys2Proof.Machine

open Sys2Proof.Claims

/-! ## The offsets of the map -/

/-- Every register's offset is aligned, not reserved and inside the window (10_state.md R20; 20_memory.md R51). -/
theorem Reg.off_legal (g : Reg) : g.off % 4 = 0 ∧ ¬reserved g.off ∧ g.off < 0x200 := by
  unfold reserved
  cases g with
  | key | adj | inv | vin | vout => simp only [Reg.off]; omega
  | _ => decide

/-- The map has no register exactly at a misaligned, a reserved or an outside offset (20_memory.md R52 to R54). -/
theorem regAt_eq_none_iff (off : Nat) : regAt off = none ↔ off % 4 ≠ 0 ∨ reserved off ∨ 0x200 ≤ off := by
  constructor
  · have hmap : ∀ off < 0x120, off % 4 = 0 → off < 0x020 ∨ 0x040 ≤ off → regAt off ≠ none := by decide +kernel
    intro hnone
    by_contra hlegal
    rw [reserved] at hlegal
    exact hmap off (by omega) (by omega) (by omega) hnone
  · intro hoff
    by_contra hsome
    obtain ⟨g, hg⟩ := Option.ne_none_iff_exists'.1 hsome
    obtain rfl := off_of_regAt hg
    obtain ⟨halign, hmapped, hinside⟩ := g.off_legal
    rcases hoff with hmis | hres | hout
    · exact hmis halign
    · exact hmapped hres
    · omega

/-- The accesses that reach no register (R53, R54). -/
theorem target_eq_none_iff (off size : Nat) :
    target off size = none ↔ size ≠ 4 ∨ off % 4 ≠ 0 ∨ reserved off ∨ 0x200 ≤ off := by
  rw [← regAt_eq_none_iff]
  by_cases hsize : size = 4 <;> simp [target, hsize]

/-- The ranges of ADJ and INV, and of VOUT, hold read-only registers alone (10_state.md R20). -/
theorem Reg.accessClass_eq_readOnly_of_off {g : Reg}
    (h : (0x080 ≤ g.off ∧ g.off < 0x100) ∨ (0x110 ≤ g.off ∧ g.off < 0x120)) : g.accessClass = .readOnly := by
  cases g with
  | id | param | det | scalarOut | adj | inv | vout => rfl
  | ctrl | status | cmd | scalarIn | key | vin => simp only [Reg.off] at h; omega

/-! ## Accesses by their target -/

theorem access_read_of_target_none {off size : Nat} (h : target off size = none) (r : Regs) :
    access r (.read off size) = (.busError off, r) := by
  simp [access, h]

theorem access_write_of_target_none {off size : Nat} (h : target off size = none) (r : Regs) (v : Word) :
    access r (.write off size v) = (.busError off, r) := by
  simp [access, h]

theorem access_read_of_target_some {off size : Nat} {g : Reg} (h : target off size = some g) (r : Regs) :
    access r (.read off size) = (.data (readReg r g), r) := by
  simp [access, h]

theorem access_write_of_target_some {off size : Nat} {g : Reg} (h : target off size = some g) (r : Regs) (v : Word) :
    access r (.write off size v) = (.written, writeReg r g v) := by
  simp [access, h]

/-- What a read at a register's offset answers (20_memory.md R56). -/
theorem access_read_off_fst (r : Regs) (g : Reg) : (access r (.read g.off 4)).1 = .data (readReg r g) := by
  rw [access_read_off]

/-- The read of a result register answers its residue in bits [4:0] (10_state.md R35 to R39). -/
theorem access_read_result {r : Regs} {g : Reg} {x : Res} (hg : readReg r g = Res.word x) :
    (access r (.read g.off 4)).1 = .data (resultWord x) := by
  rw [access_read_off_fst, hg, res_word_eq_append, resultWord]

/-! ## Legal writes, by the register's class -/

/-- A write to a read-only register is ignored (20_memory.md R57). -/
theorem access_write_readOnly {g : Reg} (hg : g.accessClass = .readOnly) (r : Regs) (v : Word) :
    access r (.write g.off 4 v) = (.written, r) := by
  rw [access_write_off, writeReg, hg]

/-- A write to a busy-protected register or to CMD while BUSY = 1 is dropped (R58; 40_command_lifecycle.md R92). -/
theorem access_write_dropped {r : Regs} (hbusy : r.busy = true) {g : Reg} (hg : g.droppedWhileBusy) (v : Word) :
    access r (.write g.off 4 v) = (.written, { r with ovr := true }) := by
  rw [access_write_off]
  rcases hg with hg | rfl
  · simp [writeReg, hg, hbusy]
  · simp [writeReg, Reg.accessClass, hbusy]

/-- A write to a busy-protected register of an idle block stores the word (R57). -/
theorem access_write_idle {r : Regs} (hidle : r.busy = false) {g : Reg} (hg : g.accessClass = .busyProtected)
    (v : Word) : access r (.write g.off 4 v) = (.written, storeReg r g v) := by
  rw [access_write_off]
  simp [writeReg, hg, hidle]

/-- A write to CMD of an idle block accepts the word (40_command_lifecycle.md R91). -/
theorem access_write_cmd_idle {r : Regs} (hidle : r.busy = false) (v : Word) :
    access r (.write Reg.cmd.off 4 v) = (.written, r.accept v) := by
  rw [access_write_off]
  simp [writeReg, Reg.accessClass, hidle]

/-- The W1C of a STATUS write, field by field (10_state.md R28, R31). -/
theorem Regs.clearStatus_eq (r : Regs) (v : Word) :
    r.clearStatus v = { r with
      done := if v.getLsbD 1 then false else r.done, ovr := if v.getLsbD 4 then false else r.ovr } := by
  unfold Regs.clearStatus
  cases v.getLsbD 1 <;> cases v.getLsbD 4 <;> simp

/-! ## Reading what was stored -/

/-- CTRL keeps the bits of its three fields of a written word (10_state.md R23, R40). -/
theorem ctrlBits_of_word (v : Word) :
    ctrlBits (v.extractLsb' 0 3) (v.extractLsb' 4 3) (v.getLsbD 8) = v &&& 0x177 := by
  apply BitVec.eq_of_getLsbD_eq
  intro k hk
  simp only [ctrlBits, BitVec.getLsbD_append, BitVec.getLsbD_extractLsb', BitVec.getLsbD_and, BitVec.getLsbD_ofBool,
    BitVec.getLsbD_zero]
  interval_cases k <;> simp

/-- A busy-protected register reads back the word stored in it, CTRL its fields (10_state.md R23 to R26). -/
theorem readReg_storeReg_same {g : Reg} (hg : g.accessClass = .busyProtected) (r : Regs) (v : Word) :
    readReg (storeReg r g v) g = if g = .ctrl then v &&& 0x177 else v := by
  cases g with
  | ctrl => exact ctrlBits_of_word v
  | scalarIn => rfl
  | key i j => exact Grid.get_set_same r.key i j v
  | vin k => exact Quad.get_set_same r.vin k v
  | _ => cases hg

/-- Storing to one register is not seen by any other (20_memory.md R57). -/
theorem readReg_storeReg_of_ne {g h : Reg} (hne : h ≠ g) (r : Regs) (v : Word) :
    readReg (storeReg r g v) h = readReg r h := by
  cases g with
  | ctrl =>
    cases h with
    | ctrl => exact absurd rfl hne
    | _ => rfl
  | scalarIn =>
    cases h with
    | scalarIn => exact absurd rfl hne
    | _ => rfl
  | key i j =>
    cases h with
    | key k l => exact (Grid.get_set r.key i j k l v).trans (if_neg fun ⟨hk, hl⟩ => hne (by rw [hk, hl]))
    | _ => rfl
  | vin k =>
    cases h with
    | vin l => exact (Quad.get_set r.vin k l v).trans (if_neg fun hl => hne (by rw [hl]))
    | _ => rfl
  | _ => rfl

/-! ## The byte view -/

/-- Lane `b` of a register sits at its offset + b (20_memory.md R55). -/
theorem byteAt_off_add (r : Regs) (g : Reg) {b : Nat} (hb : b < 4) :
    byteAt r (g.off + b) = some ((readReg r g).extractLsb' (8 * b) 8) := by
  obtain ⟨halign, -, -⟩ := g.off_legal
  have hlane : (g.off + b) % 4 = b := by omega
  simp [byteAt, hlane]

/-- A word is its four bytes, the least significant last. -/
theorem word_eq_append_bytes (w : Word) :
    w = (w.extractLsb' 24 8 ++ w.extractLsb' 16 8 ++ w.extractLsb' 8 8 ++ w.extractLsb' 0 8 : BitVec 32) := by
  simp only [BitVec.extractLsb'_append_extractLsb'_eq_extractLsb', BitVec.extractLsb'_eq_self]

/-! ## The fields of STATUS -/

/-- ERR is set exactly by an outcome other than NONE (10_state.md R29). -/
theorem Regs.err_eq (r : Regs) : r.err = decide (r.errcode ≠ .noError) := by
  unfold Regs.err
  cases r.errcode <;> rfl

end Sys2Proof.Machine

namespace Sys2Proof.Proofs

open Sys2Proof.Machine Sys2Proof.Claims

/-- Settles O30: the listed accesses are those that reach no register. -/
theorem busErrorsAreExactlyTheListedAccesses : Obligations.BusErrorsAreExactlyTheListedAccesses := by
  intro r off size v
  rw [← target_eq_none_iff]
  refine ⟨fun h => ⟨access_read_of_target_none h r, access_write_of_target_none h r v⟩, fun h => ?_⟩
  obtain ⟨g, hg⟩ := Option.ne_none_iff_exists'.1 h
  exact ⟨⟨readReg r g, access_read_of_target_some hg r⟩, by rw [access_write_of_target_some hg]⟩

/-- Settles O31, by the rule of each access class; the offsets of the result ranges are read-only registers'. -/
theorem legalWritesHaveExactlyTheirEffect : Obligations.LegalWritesHaveExactlyTheirEffect := by
  intro r v
  refine ⟨?_, fun off halign hrange => ?_, ?_, fun hbusy g hg => access_write_dropped hbusy hg v, fun hidle => ?_⟩
  · simp only [List.forall_mem_cons, List.not_mem_nil, false_imp_iff, implies_true, and_true]
    exact ⟨access_write_readOnly (g := .id) rfl r v, access_write_readOnly (g := .param) rfl r v,
      access_write_readOnly (g := .det) rfl r v, access_write_readOnly (g := .scalarOut) rfl r v⟩
  · have hreg : regAt off ≠ none := by
      rw [Ne, regAt_eq_none_iff, reserved]
      omega
    obtain ⟨g, hg⟩ := Option.ne_none_iff_exists'.1 hreg
    obtain rfl := off_of_regAt hg
    exact access_write_readOnly (Reg.accessClass_eq_readOnly_of_off hrange) r v
  · rw [access_write_status, Regs.clearStatus_eq]
  · exact ⟨access_write_idle hidle (g := .ctrl) rfl v, access_write_idle hidle (g := .scalarIn) rfl v,
      fun i j => access_write_idle hidle (g := .key i j) rfl v, fun k => access_write_idle hidle (g := .vin k) rfl v,
      access_write_cmd_idle hidle v⟩

/-- Settles O32: the write is `storeReg`, which its own register reads back and no other sees. -/
theorem idleOperandWritesReadBack : Obligations.IdleOperandWritesReadBack := by
  intro r g v hg hidle
  simp only [access_write_idle hidle hg, access_read_off]
  exact ⟨congrArg _ (readReg_storeReg_same hg r v), fun _ hne => congrArg _ (readReg_storeReg_of_ne hne r v)⟩

/-- Settles O37: the four lanes of the register are its bytes. -/
theorem byteLanesAreLittleEndian : Obligations.ByteLanesAreLittleEndian :=
  fun r g => ⟨_, _, _, _, byteAt_off_add r g (b := 0) (by decide), byteAt_off_add r g (b := 1) (by decide),
    byteAt_off_add r g (b := 2) (by decide), byteAt_off_add r g (b := 3) (by decide),
    word_eq_append_bytes (readReg r g)⟩

/-- Settles O54: each offset is its register's, and `readReg` of that register is the word listed. -/
theorem legalReadsReturnTheRegisters : Obligations.LegalReadsReturnTheRegisters := by
  intro r
  refine ⟨access_read_regs r, access_read_off_fst r, access_read_off_fst r .id, access_read_off_fst r .param,
    access_read_off_fst r .ctrl, ?_, access_read_off_fst r .cmd, access_read_result (g := .det) rfl,
    access_read_off_fst r .scalarIn, access_read_result (g := .scalarOut) rfl,
    fun i j => ⟨access_read_off_fst r (.key i j), access_read_result (g := .adj i j) rfl,
      access_read_result (g := .inv i j) rfl⟩,
    fun k => ⟨access_read_off_fst r (.vin k), access_read_result (g := .vout k) rfl⟩⟩
  rw [errNumber_eq_code, ← Regs.err_eq]
  exact access_read_off_fst r .status

/-- Settles O9: each of the five targets is dropped while BUSY = 1. -/
theorem writesWhileBusyAreDropped : Obligations.WritesWhileBusyAreDropped :=
  fun _ v hbusy => ⟨fun i j => access_write_dropped hbusy (g := .key i j) (.inl rfl) v,
    fun k => access_write_dropped hbusy (g := .vin k) (.inl rfl) v,
    access_write_dropped hbusy (g := .ctrl) (.inl rfl) v, access_write_dropped hbusy (g := .scalarIn) (.inl rfl) v,
    access_write_dropped hbusy (g := .cmd) (.inr rfl) v⟩

end Sys2Proof.Proofs

namespace Sys2Proof.Machine

open Sys2Proof.Claims

/-! ## The decoder -/

/-- The family of the encoding statements, gathered over all commands. -/
theorem encoding_statement (i : Instr) : Laws.Encoding.Statement i := by
  cases i with
  | nop => exact Laws.Encoding.nop
  | det => exact Laws.Encoding.det
  | modinv => exact Laws.Encoding.modinv
  | adj => exact Laws.Encoding.adj
  | inv => exact Laws.Encoding.inv
  | check => exact Laws.Encoding.check
  | enc => exact Laws.Encoding.enc
  | dec => exact Laws.Encoding.dec

/-- A command's word has the OP value of the table (30_encoding.md R73). -/
theorem encode_toNat (i : Instr) : (encode i).toNat = tableCode i := by
  cases i <;> rfl

@[simp] theorem wordOp_encode (i : Instr) : wordOp (encode i) = opcode i := by
  cases i <;> rfl

@[simp] theorem wordRsv_encode (i : Instr) : wordRsv (encode i) = 0 := by
  obtain ⟨-, -, hrsv⟩ := encoding_statement i
  exact hrsv

/-- A word is its fields RSV and OP (R71). -/
theorem word_eq_rsv_append_op (w : Word) : w = (wordRsv w ++ wordOp w : BitVec 32) := by
  simp only [wordRsv, wordOp, BitVec.extractLsb'_append_extractLsb'_eq_extractLsb', BitVec.extractLsb'_eq_self]

/-- RSV is 0 exactly in the words below 2^8 (R71). -/
theorem wordRsv_eq_zero_iff (w : Word) : wordRsv w = 0 ↔ w.toNat < 256 := by
  rw [← BitVec.toNat_inj, wordRsv, BitVec.extractLsb'_toNat, Nat.shiftRight_eq_div_pow]
  change w.toNat / 2 ^ 8 % 2 ^ 24 = 0 ↔ w.toNat < 256
  omega

/-- OP is read as a command exactly where it is the command's code (R73, R75). -/
theorem decodeOp_eq_ok_iff (op : BitVec 8) (i : Instr) : decodeOp op = .ok i ↔ op = opcode i := by
  constructor
  · intro h
    unfold decodeOp at h
    split_ifs at h <;> cases h <;> assumption
  · rintro rfl
    cases i <;> rfl

theorem decodeOp_error {op : BitVec 8} {e : Illegal} (h : decodeOp op = .error e) : e = .undefinedOp := by
  unfold decodeOp at h
  split_ifs at h
  cases h
  rfl

/-- With RSV = 0, OP alone decides (R78). -/
theorem decode_of_rsv_zero {w : Word} (h : wordRsv w = 0) : decode w = decodeOp (wordOp w) := by
  simp [decode, h]

theorem decode_of_rsv_ne_zero {w : Word} (h : wordRsv w ≠ 0) : decode w = .error .reservedBits :=
  if_pos h

/-- The decoder reads a command from that command's encoding and from no other word (R78). -/
theorem decode_eq_ok_iff (w : Word) (i : Instr) : decode w = .ok i ↔ w = encode i := by
  constructor
  · intro h
    by_cases hrsv : wordRsv w = 0
    · rw [decode_of_rsv_zero hrsv, decodeOp_eq_ok_iff] at h
      rw [word_eq_rsv_append_op w, hrsv, h]
      rfl
    · rw [decode_of_rsv_ne_zero hrsv] at h
      cases h
  · rintro rfl
    rw [decode_of_rsv_zero (wordRsv_encode i), wordOp_encode, decodeOp_eq_ok_iff]

/-- The same against the table's numbers (R73, R78). -/
theorem decode_eq_ok_iff_tableCode (w : Word) (i : Instr) : decode w = .ok i ↔ w.toNat = tableCode i := by
  rw [decode_eq_ok_iff, ← encode_toNat, BitVec.toNat_inj]

/-- Every illegal word is refused by the decoder (R74, R75). -/
theorem decode_ne_ok_of_illegal {w : Word} (h : illegal w) (i : Instr) : decode w ≠ .ok i :=
  fun hok => h i ((decode_eq_ok_iff_tableCode w i).1 hok)

/-- The list of the legality check holds the codes of the table and no other (R73, R75). -/
theorem mem_definedOps_iff (n : Nat) : n ∈ definedOps ↔ ∃ i, n = tableCode i := by
  constructor
  · intro h
    simp only [definedOps, List.mem_cons, List.not_mem_nil, or_false] at h
    rcases h with h | h | h | h | h | h | h | h
    exacts [⟨.nop, h⟩, ⟨.det, h⟩, ⟨.modinv, h⟩, ⟨.adj, h⟩, ⟨.inv, h⟩, ⟨.check, h⟩, ⟨.enc, h⟩, ⟨.dec, h⟩]
  · rintro ⟨i, rfl⟩
    cases i <;> decide

/-- The legality check passes exactly the commands' words (R74, R75). -/
theorem legalWord_iff (w : Word) : legalWord w = true ↔ ∃ i, w = encode i := by
  constructor
  · intro h
    simp only [legalWord, Bool.and_eq_true, beq_iff_eq, List.contains_iff_mem, mem_definedOps_iff] at h
    obtain ⟨hrsv, i, hop⟩ := h
    exact ⟨i, BitVec.eq_of_toNat_eq (by rw [encode_toNat]; omega)⟩
  · rintro ⟨i, rfl⟩
    obtain ⟨-, hlegal, -⟩ := encoding_statement i
    exact hlegal

/-! ## The command unit's turn -/

/-- An illegal word in flight completes with ILLEGAL_CMD (R74, R75). -/
theorem unitTurn_of_illegal {s : State} (hrst : s.rst = false) (hbusy : s.regs.busy = true)
    (hw : illegal s.regs.pending) : unitTurn s = .next { s with regs := s.regs.fail .illegalCmd } := by
  rcases unitTurn_cases s with ⟨h, -⟩ | ⟨-, h, -⟩ | ⟨-, -, ⟨i, hdec, -⟩ | ⟨e, -, h⟩⟩
  · simp [hrst] at h
  · simp [hbusy] at h
  · exact absurd hdec (decode_ne_ok_of_illegal hw i)
  · exact h

/-- A command that answers a next state changed the registers alone: it committed one of its results, or an error
code (40_command_lifecycle.md R94, R95). -/
theorem exec_next_cases {i : Instr} {s t : State} (h : exec i s = .next t) :
    (∃ w, Commits i w ∧ t = { s with regs := s.regs.succeed w }) ∨
    (∃ e, t = { s with regs := s.regs.fail e }) := by
  rw [exec_eq_complete] at h
  rcases complete_cases s (outcomeOf i s.regs) with ⟨w, hw, hc⟩ | ⟨e, -, hc⟩ <;> cases hc.symm.trans h
  · exact .inl ⟨w, outcomeOf_commits hw, rfl⟩
  · exact .inr ⟨e, rfl⟩

/-- A command changes nothing outside the registers. -/
theorem exec_keeps_outside {i : Instr} {s t : State} (h : exec i s = .next t) : t = { s with regs := t.regs } := by
  rcases exec_next_cases h with ⟨w, -, rfl⟩ | ⟨e, rfl⟩ <;> rfl

/-- Out of reset the command unit changes nothing outside the registers. -/
theorem unitTurn_keeps_outside {s t : State} (hrst : s.rst = false) (h : unitTurn s = .next t) :
    t = { s with regs := t.regs } := by
  rcases unitTurn_cases s with ⟨hr, -⟩ | ⟨-, -, he⟩ | ⟨-, -, ⟨i, -, he⟩ | ⟨e, -, he⟩⟩
  · simp [hrst] at hr
  · cases he.symm.trans h
    rfl
  · exact exec_keeps_outside (he.symm.trans h)
  · cases he.symm.trans h
    rfl

/-! ## The frame of a completion -/

/-- A failed completion is seen in STATUS alone (R95). -/
theorem readReg_fail {g : Reg} (hg : g ≠ .status) (r : Regs) (e : ErrCode) : readReg (r.fail e) g = readReg r g := by
  cases g with
  | status => exact absurd rfl hg
  | _ => rfl

/-- A success is seen in STATUS and in the command's result registers alone (R94; 30_encoding.md R79). -/
theorem readReg_succeed {i : Instr} {w : Result} (h : Commits i w) {g : Reg} (hg : g ≠ .status)
    (hres : ¬resultByte i g.off) (r : Regs) : readReg (r.succeed w) g = readReg r g := by
  cases g with
  | status => exact absurd rfl hg
  | id | param | cmd => rfl
  | ctrl | scalarIn | key | vin => simp [readReg, Regs.ctrlWord]
  | det =>
    cases h with
    | det => exact absurd ⟨by decide, by decide⟩ hres
    | _ => rfl
  | scalarOut =>
    cases h with
    | modinv => exact absurd ⟨by decide, by decide⟩ hres
    | _ => rfl
  | adj k l =>
    cases h with
    | adj => simp only [resultByte, Reg.off] at hres; omega
    | _ => rfl
  | inv k l =>
    cases h with
    | inv => simp only [resultByte, Reg.off] at hres; omega
    | _ => rfl
  | vout k =>
    cases h with
    | enc | dec => simp only [resultByte, Reg.off] at hres; omega
    | _ => rfl

/-- The result registers are whole words, so a byte is a result's exactly where its register's offset is. -/
theorem resultByte_of_aligned {i : Instr} {a : Nat} (h : resultByte i (a - a % 4)) : resultByte i a := by
  cases i <;> simp only [resultByte] at h ⊢ <;> omega

/-- A byte of the window shows one register, that at its word's offset (20_memory.md R55). -/
theorem byteAt_congr {r q : Regs} {a : Nat} (h : ∀ g : Reg, g.off = a - a % 4 → readReg r g = readReg q g) :
    byteAt r a = byteAt q a := by
  unfold byteAt
  cases hreg : regAt (a - a % 4) with
  | none => rfl
  | some g => simp only [h g (off_of_regAt hreg).symm]

/-- The frame of every command, register by register. -/
theorem exec_readReg_frame {i : Instr} {s t : State} (h : exec i s = .next t) {g : Reg} (hg : g ≠ .status)
    (hres : ¬resultByte i g.off) : readReg t.regs g = readReg s.regs g := by
  rcases exec_next_cases h with ⟨w, hw, rfl⟩ | ⟨e, rfl⟩
  · exact readReg_succeed hw hg hres s.regs
  · exact readReg_fail hg s.regs e

/-! ## The host alone -/

/-- The host alone has a step: RST is released, no command is in flight and nothing is scheduled
(40_command_lifecycle.md R93). -/
structure HostAlone (s : State) : Prop where
  rst : s.rst = false
  idle : s.regs.busy = false
  schedule : s.schedule = []

theorem HostAlone.hostNext_head {s : State} (h : HostAlone s) {op : HostOp} {rest : List HostOp}
    (hscript : s.script = op :: rest) : hostNext s op :=
  ⟨h.rst, by rw [hscript]; rfl, .inr ⟨h.schedule, h.idle⟩⟩

theorem HostAlone.step_eq {s : State} (h : HostAlone s) {op : HostOp} {rest : List HostOp}
    (hscript : s.script = op :: rest) : step s = .next (runHostOp op rest s) := by
  have hsched : ({ s with schedule := s.schedule.tail } : State) = s := by
    cases s
    cases h.schedule
    rfl
  rw [step_of_hostNext (h.hostNext_head hscript), hsched, hscript, List.tail_cons]

/-! ## WAIT -/

/-- One poll of `WAIT`: it reads STATUS and goes on to the rest exactly where BUSY = 0 (30_encoding.md R82). -/
theorem runHostOp_wait (rest : List HostOp) (s : State) :
    runHostOp .wait rest s = { s with
      resp := some (.data (readReg s.regs .status)), script := if s.regs.busy then .wait :: rest else rest } := by
  simp only [runHostOp, pollStatus, readReg_status, statusBits_busy]
  cases s.regs.busy <;> rfl

/-- An idle block's host leaves `WAIT` at its next poll (R82). -/
theorem HostAlone.step_wait {s : State} (h : HostAlone s) {rest : List HostOp} (hscript : s.script = .wait :: rest) :
    ∃ t, step s = .next t ∧ t.script = rest ∧ t.regs = s.regs :=
  ⟨_, h.step_eq hscript, by simp [runHostOp_wait, h.idle], by simp [runHostOp_wait]⟩

/-- With nothing scheduled a command in flight completes in one step, and the host then has the block alone with its
program where it was. The turn is the model's choice (log entry 5). -/
theorem step_completes_unscheduled {s : State} (hrst : s.rst = false) (hbusy : s.regs.busy = true)
    (hsched : s.schedule = []) :
    ∃ t, step s = .next t ∧ HostAlone t ∧ t.regs.done = true ∧ t.script = s.script := by
  obtain ⟨t, ht, hidle, hdone, -⟩ := unitTurn_inFlight s hrst hbusy
  have hkeep := unitTurn_keeps_outside hrst ht
  refine ⟨t, ?_, ⟨?_, hidle, ?_⟩, hdone, ?_⟩
  · simp [step_unscheduled s hsched, unscheduledTurn, hbusy, takeTurn, ht]
  · rw [hkeep]; exact hrst
  · rw [hkeep]; exact hsched
  · rw [hkeep]

/-! ## LDKEY -/

/-- KEY after the writes of LDKEY from entry number `k` on: entry number `k` goes to KEY[k / n][k % n] (R82). -/
def loadEntries (n : Nat) : Nat → List Int → Grid Word → Grid Word
  | _, [], K => K
  | k, v :: vs, K =>
    loadEntries n (k + 1) vs (Grid.set K (Fin.ofNat 4 (k / n)) (Fin.ofNat 4 (k % n)) (valueWord v))

/-- Entry number `k` of a row-by-row n×n matrix stands at row k / n and column k % n. -/
theorem entry_position_iff {n k : Nat} (hn : n ≤ 4) (hk : k < n * n) (i j : Fin 4) :
    (i = Fin.ofNat 4 (k / n) ∧ j = Fin.ofNat 4 (k % n)) ↔ (j.val < n ∧ i.val * n + j.val = k) := by
  have hpos : 0 < n := Nat.pos_of_mul_pos_right (Nat.zero_lt_of_lt hk)
  have hrow : k / n < 4 := lt_of_lt_of_le (Nat.div_lt_of_lt_mul hk) hn
  have hcol : k % n < 4 := lt_of_lt_of_le (Nat.mod_lt k hpos) hn
  have huniq := Nat.div_mod_unique (a := k) (c := j.val) (d := i.val) hpos
  rw [Fin.ext_iff, Fin.ext_iff, Fin.val_ofNat, Fin.val_ofNat, Nat.mod_eq_of_lt hrow, Nat.mod_eq_of_lt hcol,
    eq_comm, @eq_comm _ j.val, huniq, Nat.mul_comm i.val, Nat.add_comm j.val, and_comm]

/-- The loaded entries are the list's, row by row, and the others are as before. -/
theorem loadEntries_get {n : Nat} (hn : n ≤ 4) (es : List Int) (k : Nat) (hk : k + es.length ≤ n * n)
    (K : Grid Word) (i j : Fin 4) :
    Grid.get (loadEntries n k es K) i j =
      if j.val < n ∧ k ≤ i.val * n + j.val ∧ i.val * n + j.val < k + es.length
      then valueWord (es.getD (i.val * n + j.val - k) 0) else Grid.get K i j := by
  induction es generalizing k K with
  | nil =>
    rw [List.length_nil, if_neg (by omega)]
    rfl
  | cons v vs ih =>
    rw [List.length_cons] at hk ⊢
    rw [loadEntries, ih (k + 1) (by omega), Grid.get_set]
    simp only [entry_position_iff hn (show k < n * n by omega)]
    generalize i.val * n + j.val = m
    rcases lt_trichotomy m k with hm | rfl | hm
    · rw [if_neg (by omega), if_neg (by omega), if_neg (by omega)]
    · rw [if_neg (by omega)]
      simp
    · obtain ⟨d, rfl⟩ := Nat.exists_eq_add_of_lt hm
      rw [if_neg (c := j.val < n ∧ _ = k) (by omega), show k + d + 1 - k = d + 1 by omega,
        show k + d + 1 - (k + 1) = d by omega, List.getD_cons_succ]
      congr 1
      simp only [eq_iff_iff]
      omega

/-- One operand write of the host alone (20_memory.md R57). -/
theorem HostAlone.step_writeOp {s : State} (h : HostAlone s) {g : Reg} (hg : g.accessClass = .busyProtected) {v : Word}
    {rest : List HostOp} (hscript : s.script = writeOp g v :: rest) :
    ∃ t, step s = .next t ∧ HostAlone t ∧ t.script = rest ∧ t.regs = storeReg s.regs g v := by
  refine ⟨_, h.step_eq hscript, ?_⟩
  rw [writeOp, runHostOp, access_write_idle h.idle hg]
  exact ⟨⟨h.rst, by simp [h.idle], h.schedule⟩, rfl, rfl⟩

/-- The KEY writes of LDKEY, run by the host alone. -/
theorem HostAlone.run_keyOps {n : Nat} (es : List Int) {k : Nat} {s : State} (h : HostAlone s)
    (hscript : s.script = keyOps n k es) :
    ∃ t, core.run es.length s = .next t ∧ t.script = [] ∧
      t.regs = { s.regs with key := loadEntries n k es s.regs.key } := by
  induction es generalizing k s with
  | nil => exact ⟨s, rfl, hscript, rfl⟩
  | cons v vs ih =>
    obtain ⟨u, hstep, halone, hrest, hregs⟩ := h.step_writeOp rfl hscript
    obtain ⟨t, hrun, hdone, ht⟩ := ih halone hrest
    exact ⟨t, (run_next hstep).trans hrun, hdone, by rw [ht, hregs]; rfl⟩

/-- The CTRL word of LDKEY holds the shape n×n and IE = 0 (10_state.md R23; 30_encoding.md R82). -/
theorem ldKey_ctrlWord_fields {n : Nat} (hn : n ≤ 4) :
    ((BitVec.ofNat 32 (n + 16 * n)).extractLsb' 0 3).toNat = n ∧
    ((BitVec.ofNat 32 (n + 16 * n)).extractLsb' 4 3).toNat = n ∧
    (BitVec.ofNat 32 (n + 16 * n)).getLsbD 8 = false := by
  interval_cases n <;> decide

end Sys2Proof.Machine

namespace Sys2Proof.Proofs

open Sys2Proof.Machine Sys2Proof.Claims

/-- Settles O2: the decoder answers a command exactly at its encoding, whose number is the table's. -/
theorem decoderAcceptsExactlyTheTableWords : Obligations.DecoderAcceptsExactlyTheTableWords :=
  decode_eq_ok_iff_tableCode

/-- Settles O3, by the decoder's and the legality check's characterisations through `encode`. -/
theorem decodeAndEncodeAgree : Obligations.DecodeAndEncodeAgree := by
  refine ⟨fun i => ?_, fun w i => (decode_eq_ok_iff w i).1, legalWord_iff⟩
  obtain ⟨hwf, -, -⟩ := encoding_statement i
  exact ⟨hwf, (decode_eq_ok_iff _ i).2 rfl⟩

/-- Settles O4: RSV is checked first, and OP alone decides where RSV is 0. -/
theorem illegalWordsAreRejectedByName : Obligations.IllegalWordsAreRejectedByName := by
  refine fun w => ⟨fun hbig => ?_, fun hsmall hw => ?_⟩
  · exact decode_of_rsv_ne_zero fun hrsv => absurd ((wordRsv_eq_zero_iff w).1 hrsv) (by omega)
  · have hop := decode_of_rsv_zero ((wordRsv_eq_zero_iff w).2 hsmall)
    cases hdec : decode w with
    | ok i => exact absurd hdec (decode_ne_ok_of_illegal hw i)
    | error e => rw [decodeOp_error (hop.symm.trans hdec)]

/-- Settles O7: acceptance does not decode, and the completion of a word that does not decode is ILLEGAL_CMD. -/
theorem illegalWordsAreAcceptedAndFail : Obligations.IllegalWordsAreAcceptedAndFail := by
  refine ⟨fun r w _ hidle => access_write_cmd_idle hidle w, fun s rest ⟨hrst, hbusy, hsched⟩ hw => ?_⟩
  rw [step_scheduled s _ _ hsched]
  exact unitTurn_of_illegal (s := { s with schedule := rest }) hrst hbusy hw

/-- Settles O13: a byte shows one register, and a completion is seen in STATUS and the command's results alone. -/
theorem commandsChangeOnlyTheirResults : Obligations.CommandsChangeOnlyTheirResults := by
  intro i s t h
  refine ⟨fun a hres hstatus => byteAt_congr fun g hoff => exec_readReg_frame h ?_ ?_, ?_⟩
  · rintro rfl
    simp only [Reg.off] at hoff
    omega
  · rw [hoff]
    exact fun hr => hres (resultByte_of_aligned hr)
  · rcases exec_next_cases h with ⟨w, hw, rfl⟩ | ⟨e, rfl⟩
    · exact ⟨by simp, by simp, fun hi => hw.invertible_eq hi s.regs, rfl, rfl, rfl, rfl, rfl⟩
    · exact ⟨rfl, rfl, fun _ => rfl, rfl, rfl, rfl, rfl, rfl⟩

/-- Settles O50: a poll goes on exactly at BUSY = 0, and with nothing scheduled the completion comes first. -/
theorem waitEndsWithTheCommandComplete : Obligations.WaitEndsWithTheCommandComplete := by
  refine ⟨fun s t rest hnext hscript h => ?_, fun s rest hrst hscript hsched => ?_⟩
  · rw [step_of_hostNext hnext, hscript, List.tail_cons, runHostOp_wait] at h
    cases h
    exact ⟨rfl, rfl, rfl⟩
  · cases hbusy : s.regs.busy
    · obtain ⟨t, hstep, hrest, hregs⟩ := HostAlone.step_wait ⟨hrst, hbusy, hsched⟩ hscript
      exact ⟨1, t, by omega, run_next hstep, hrest, by rw [hregs, hbusy], by simp⟩
    · obtain ⟨u, hunit, halone, hdone, hkeep⟩ := step_completes_unscheduled hrst hbusy hsched
      obtain ⟨t, hstep, hrest, hregs⟩ := halone.step_wait (hkeep.trans hscript)
      exact ⟨2, t, le_refl 2, (run_next hunit).trans (run_next hstep), hrest, by rw [hregs, halone.idle],
        fun _ => by rw [hregs, hdone]⟩

/-- Settles O51: the CTRL write stores the shape, and by induction on the entries the KEY writes load the matrix. -/
theorem loadKeyLoadsTheMatrix : Obligations.LoadKeyLoadsTheMatrix := by
  intro s n es _ hn hlen _ hrst hidle hscript hsched
  obtain ⟨u, hctrl, halone, hrest, hu⟩ := HostAlone.step_writeOp ⟨hrst, hidle, hsched⟩ (g := .ctrl) rfl hscript
  obtain ⟨t, hkeys, hdone, ht⟩ := halone.run_keyOps es hrest
  have hentry := loadEntries_get hn es 0 (by omega) s.regs.key
  obtain ⟨hrows, hcols, hie⟩ := ldKey_ctrlWord_fields hn
  rw [hu] at ht
  refine ⟨t, hlen ▸ (run_next hctrl).trans hkeys, hdone, ?_⟩
  rw [ht]
  refine ⟨hrows, hcols, hie, fun i j hi hj => ?_, fun i j hout => ?_, rfl⟩
  · have hrow : (i.val + 1) * n ≤ n * n := Nat.mul_le_mul_right n hi
    rw [Nat.succ_mul] at hrow
    refine (congrArg (fun w : Word => (w.toNat : Int)) ((hentry i j).trans (if_pos ?_))).trans (valueWord_toNat _)
    omega
  · refine (hentry i j).trans (if_neg ?_)
    rcases hout with hi | hj
    · have hrow : n * n ≤ i.val * n := Nat.mul_le_mul_right n hi
      omega
    · omega

/-- Settles O1: the eight words are the commands' encodings. -/
theorem tableWordsDecodeToTheirCommands : Obligations.TableWordsDecodeToTheirCommands :=
  ⟨(decode_eq_ok_iff _ .nop).2 rfl, (decode_eq_ok_iff _ .det).2 rfl, (decode_eq_ok_iff _ .modinv).2 rfl,
    (decode_eq_ok_iff _ .adj).2 rfl, (decode_eq_ok_iff _ .inv).2 rfl, (decode_eq_ok_iff _ .check).2 rfl,
    (decode_eq_ok_iff _ .enc).2 rfl, (decode_eq_ok_iff _ .dec).2 rfl⟩

end Sys2Proof.Proofs

namespace Sys2Proof.Machine

open Sys2Proof.Claims

/-! ## The state a completion commits -/

/-- The registers after a completion with an outcome of `Exec` (40_command_lifecycle.md R94, R95). -/
def Regs.commit (r : Regs) : Except ErrCode Result → Regs
  | .ok w => r.succeed w
  | .error e => r.fail e

theorem complete_eq_commit (s : State) (o : Except ErrCode Result) :
    complete s o = .next { s with regs := s.regs.commit o } := by
  cases o <;> rfl

theorem exec_eq_commit (i : Instr) (s : State) :
    exec i s = .next { s with regs := s.regs.commit (outcomeOf i s.regs) } := by
  rw [exec_eq_complete, complete_eq_commit]

@[simp] theorem Regs.commit_busy (r : Regs) (o : Except ErrCode Result) : (r.commit o).busy = false := by
  cases o with
  | ok w => exact r.succeed_busy w
  | error e => rfl

@[simp] theorem Regs.commit_done (r : Regs) (o : Except ErrCode Result) : (r.commit o).done = true := by
  cases o with
  | ok w => exact r.succeed_done w
  | error e => rfl

/-- The error code depends on the outcome alone (R94, R95). -/
theorem Regs.commit_errcode_congr (r q : Regs) (o : Except ErrCode Result) :
    (r.commit o).errcode = (q.commit o).errcode := by
  cases o with
  | ok w => exact (r.succeed_errcode w).trans (q.succeed_errcode w).symm
  | error e => rfl

/-- A completion writes no operand (30_encoding.md R79). -/
theorem sameOperands_commit (r : Regs) (o : Except ErrCode Result) : sameOperands r (r.commit o) := by
  cases o <;> constructor <;> simp [Regs.commit]

/-- The same results commit to the same results (R94, R95). -/
theorem sameResults.commit {r q : Regs} (h : sameResults r q) (o : Except ErrCode Result) :
    sameResults (r.commit o) (q.commit o) := by
  obtain ⟨hdet, hscalar, hadj, hinv, hvout, hinvertible⟩ := h
  cases o with
  | error e => exact ⟨hdet, hscalar, hadj, hinv, hvout, hinvertible⟩
  | ok w => cases w <;> constructor <;> simp [Regs.commit, *]

/-! ## No failure has the code NONE -/

theorem keyShape_error_ne_noError {r : Regs} {e : ErrCode} (h : keyShape r = .error e) : e ≠ .noError := by
  rcases keyShape_error r e h with rfl | rfl <;> decide

theorem codecKey_error_ne_noError {r : Regs} {e : ErrCode} (h : codecKey r = .error e) : e ≠ .noError := by
  unfold codecKey at h
  split at h
  · next hshape =>
    cases h
    exact keyShape_error_ne_noError hshape
  · split_ifs at h
    cases h
    decide

theorem codecOutcome_error_ne_noError {r : Regs} {B : Nat → Mat → Mat} {e : ErrCode}
    (h : codecOutcome r B = .error e) : e ≠ .noError := by
  unfold codecOutcome at h
  split at h
  · next hkey =>
    cases h
    exact codecKey_error_ne_noError hkey
  · split at h
    · next hcheck =>
      cases h
      rw [inputCheck_error _ _ _ hcheck]
      decide
    · cases h

/-- An outcome that is an error has a code other than NONE (60_exceptions.md R160). -/
theorem outcomeOf_error_ne_noError {i : Instr} {r : Regs} {e : ErrCode} (h : outcomeOf i r = .error e) :
    e ≠ .noError := by
  cases i with
  | nop => cases h
  | det | adj =>
    simp only [outcomeOf, detOutcome, adjOutcome] at h
    split at h <;> cases h
    next hshape => exact keyShape_error_ne_noError hshape
  | modinv =>
    simp only [outcomeOf, modinvOutcome] at h
    split_ifs at h
    cases h
    decide
  | inv =>
    simp only [outcomeOf, invOutcome] at h
    split at h
    · next hshape =>
      cases h
      exact keyShape_error_ne_noError hshape
    · split_ifs at h
      cases h
      decide
  | check =>
    simp only [outcomeOf, checkOutcome] at h
    split_ifs at h
  | enc => exact codecOutcome_error_ne_noError (B := fun _ A => A) h
  | dec => exact codecOutcome_error_ne_noError (B := invMat) h

/-- A completion shows ERRCODE = NONE only after a success (40_command_lifecycle.md R94, R95). -/
theorem outcomeOf_ok_of_noError {i : Instr} {r q : Regs} (h : (q.commit (outcomeOf i r)).errcode = .noError) :
    ∃ w, outcomeOf i r = .ok w := by
  cases ho : outcomeOf i r with
  | ok w => exact ⟨w, rfl⟩
  | error e =>
    rw [ho] at h
    exact absurd h (outcomeOf_error_ne_noError ho)

/-- A command that ends with ERRCODE = NONE committed the result of its success (R94). -/
theorem exec_success {i : Instr} {s t : State} (h : exec i s = .next t) (hok : t.regs.errcode = .noError) :
    ∃ w, outcomeOf i s.regs = .ok w ∧ t.regs = s.regs.succeed w := by
  obtain rfl := Host.Outcome.next.inj ((exec_eq_commit i s).symm.trans h)
  obtain ⟨w, hw⟩ := outcomeOf_ok_of_noError hok
  exact ⟨w, hw, by rw [hw]; rfl⟩

/-! ## Zero fill -/

theorem resGrid_get_beyond {n : Nat} {i j : Fin 4} (h : n ≤ i.val ∨ n ≤ j.val) (A : Mat) :
    Grid.get (resGrid n A) i j = 0 := by
  rw [resGrid_get, if_neg (by omega)]

theorem resVec_get_beyond {n : Nat} {k : Fin 4} (h : n ≤ k.val) (f : Nat → Int) : (resVec n f).get k = 0 := by
  rw [resVec_get, if_neg (by omega)]

/-- What INV commits is an array of the key's dimension (41_matrix_algebra.md R123). -/
theorem invOutcome_ok_grid {r : Regs} {n : Nat} {w : Result} (hn : keyShape r = .ok n) (h : invOutcome r = .ok w) :
    ∃ A, w = .inv (resGrid n A) := by
  simp only [invOutcome, hn] at h
  split_ifs at h
  cases h
  exact ⟨_, rfl⟩

/-- What ENC and DEC commit is a block of the key's dimension (42_block_codec.md R142, R143). -/
theorem codecOutcome_ok_vec {r : Regs} {n : Nat} {B : Nat → Mat → Mat} {w : Result} (hn : keyShape r = .ok n)
    (h : codecOutcome r B = .ok w) : ∃ f, w = .vout (resVec n f) := by
  cases hkey : codecKey r with
  | error e => simp [codecOutcome, hkey] at h
  | ok m =>
    obtain ⟨hm, -⟩ := (codecKey_ok_iff r m).1 hkey
    cases hn.symm.trans hm
    simp only [codecOutcome, hkey] at h
    split at h <;> cases h
    exact ⟨_, rfl⟩

/-! ## The arithmetic reads the entries inside the dimension alone -/

/-- The matrices have the same n×n entries. -/
def AgreeOn (n : Nat) (A B : Mat) : Prop := ∀ i j, i < n → j < n → A i j = B i j

theorem sumTo_congr {n : Nat} {f g : Nat → Int} (h : ∀ k < n, f k = g k) : sumTo n f = sumTo n g := by
  induction n with
  | zero => rfl
  | succ n ih => rw [sumTo, sumTo, ih fun k hk => h k (by omega), h n (by omega)]

theorem AgreeOn.minor {n : Nat} {A B : Mat} (h : AgreeOn (n + 1) A B) (r c : Nat) :
    AgreeOn n (minor A r c) (minor B r c) := by
  intro i j hi hj
  refine h _ _ ?_ ?_ <;> split <;> omega

theorem AgreeOn.det_eq {n : Nat} {A B : Mat} (h : AgreeOn n A B) : det n A = det n B := by
  induction n using Nat.twoStepInduction generalizing A B with
  | zero => rfl
  | one => exact h 0 0 (by decide) (by decide)
  | more n _ ih =>
    rw [det, det]
    refine sumTo_congr fun j hj => ?_
    rw [h 0 j (by omega) hj, ih (h.minor 0 j)]

theorem AgreeOn.keyInvertible_eq {n : Nat} {A B : Mat} (h : AgreeOn n A B) :
    keyInvertible n A = keyInvertible n B := by
  rw [keyInvertible, keyInvertible, h.det_eq]

theorem AgreeOn.adjugate {n : Nat} {A B : Mat} (h : AgreeOn n A B) : AgreeOn n (adjugate n A) (adjugate n B) := by
  intro i j hi hj
  obtain ⟨m, rfl⟩ : ∃ m, n = m + 1 := ⟨n - 1, by omega⟩
  exact congrArg _ (h.minor j i).det_eq

theorem AgreeOn.invMat {n : Nat} {A B : Mat} (h : AgreeOn n A B) : AgreeOn n (invMat n A) (invMat n B) := by
  intro i j hi hj
  rw [Machine.invMat, Machine.invMat, h.det_eq, h.adjugate i j hi hj]

theorem AgreeOn.resGrid_eq {n : Nat} {A B : Mat} (h : AgreeOn n A B) : resGrid n A = resGrid n B := by
  refine Grid.ext_get fun i j => ?_
  rw [resGrid_get, resGrid_get]
  split
  · next hin => rw [h i j hin.1 hin.2]
  · rfl

theorem AgreeOn.mulVec_eq {n : Nat} {A B : Mat} (h : AgreeOn n A B) {u v : Nat → Int} (huv : ∀ k < n, u k = v k)
    {k : Nat} (hk : k < n) : mulVec n A u k = mulVec n B v k :=
  sumTo_congr fun c hc => by rw [h k c hk hc, huv c hc]

theorem resVec_congr {n : Nat} {f g : Nat → Int} (h : ∀ k < n, f k = g k) : resVec n f = resVec n g := by
  refine Quad.ext_get fun k => ?_
  rw [resVec_get, resVec_get]
  split
  · next hk => rw [h k hk]
  · rfl

/-! ## The outcome reads the command's operands alone -/

theorem agreeOn_keyOperand_of_sameKey {r q : Regs} (h : sameKey r q) :
    AgreeOn r.krows.toNat (keyOperand r) (keyOperand q) := by
  obtain ⟨-, -, hentry⟩ := h
  intro i j hi hj
  unfold keyOperand
  split
  · next hin => rw [hentry ⟨i, hin.1⟩ ⟨j, hin.2⟩ hi hj]
  · rfl

/-- With the same key the shape check fails alike, or passes with a dimension on which the key operands agree
(40_command_lifecycle.md R97). -/
theorem keyShape_cases_of_sameKey {r q : Regs} (h : sameKey r q) :
    (∃ e, keyShape r = .error e ∧ keyShape q = .error e) ∨
    (∃ n, keyShape r = .ok n ∧ keyShape q = .ok n ∧ AgreeOn n (keyOperand r) (keyOperand q)) := by
  have ⟨hrows, hcols, _⟩ := h
  have hshape : keyShape r = keyShape q := by rw [keyShape, keyShape, hrows, hcols]
  cases hr : keyShape r with
  | error e => exact .inl ⟨e, rfl, hshape ▸ hr⟩
  | ok n =>
    obtain ⟨-, -, -, rfl⟩ := (keyShape_ok_iff r n).1 hr
    exact .inr ⟨_, rfl, hshape ▸ hr, agreeOn_keyOperand_of_sameKey h⟩

theorem inputCheck_congr {r q : Regs} {n : Nat} (h : ∀ k < n, vecOperand r k = vecOperand q k) :
    inputCheck r n = inputCheck q n := by
  have hall : (∀ k < n, vecOperand r k ≤ 25) ↔ ∀ k < n, vecOperand q k ≤ 25 :=
    forall₂_congr fun k hk => by rw [h k hk]
  simp only [inputCheck, List.all_eq_true, List.mem_range, decide_eq_true_eq, hall]

theorem vecOperand_congr {r q : Regs} {n : Nat}
    (h : ∀ k : Fin 4, k.val < n → Quad.get r.vin k = Quad.get q.vin k) {k : Nat} (hk : k < n) :
    vecOperand r k = vecOperand q k := by
  unfold vecOperand
  split
  · next hin => rw [h ⟨k, hin⟩ hk]
  · rfl

/-- The codec's key check reads the key alone (42_block_codec.md R141). -/
theorem codecKey_congr {r q : Regs} (h : sameKey r q) : codecKey r = codecKey q := by
  unfold codecKey
  rcases keyShape_cases_of_sameKey h with ⟨e, hr, hq⟩ | ⟨n, hr, hq, hK⟩
  · simp only [hr, hq]
  · simp only [hr, hq, hK.keyInvertible_eq]

theorem codecOutcome_congr {r q : Regs} (hkey : sameKey r q)
    (hvin : ∀ k : Fin 4, k.val < r.krows.toNat → Quad.get r.vin k = Quad.get q.vin k) {B : Nat → Mat → Mat}
    (hB : ∀ n A A', AgreeOn n A A' → AgreeOn n (B n A) (B n A')) : codecOutcome r B = codecOutcome q B := by
  have hq := codecKey_congr hkey
  unfold codecOutcome
  cases hr : codecKey r with
  | error e => rw [← hq, hr]
  | ok n =>
    obtain ⟨hn, -⟩ := (codecKey_ok_iff r n).1 hr
    obtain ⟨-, -, -, rfl⟩ := (keyShape_ok_iff r n).1 hn
    have hB' := hB _ _ _ (agreeOn_keyOperand_of_sameKey hkey)
    have hvec : ∀ k < r.krows.toNat, vecOperand r k = vecOperand q k := fun k hk => vecOperand_congr hvin hk
    rw [← hq, hr]
    simp only [inputCheck_congr hvec, resVec_congr fun k hk => hB'.mulVec_eq hvec hk]

/-- The same values in the registers a command reads give the same outcome (40_command_lifecycle.md R101). -/
theorem outcomeOf_congr {i : Instr} {r q : Regs} (h : sameReads i r q) : outcomeOf i r = outcomeOf i q := by
  cases i with
  | nop => rfl
  | modinv =>
    have hscalar : scalarOperand r = scalarOperand q := congrArg BitVec.toInt h
    rw [outcomeOf, outcomeOf, modinvOutcome, modinvOutcome, hscalar]
  | det =>
    rcases keyShape_cases_of_sameKey h with ⟨e, hr, hq⟩ | ⟨n, hr, hq, hK⟩
    · simp only [outcomeOf, detOutcome, hr, hq]
    · simp only [outcomeOf, detOutcome, hr, hq, hK.det_eq]
  | adj =>
    rcases keyShape_cases_of_sameKey h with ⟨e, hr, hq⟩ | ⟨n, hr, hq, hK⟩
    · simp only [outcomeOf, adjOutcome, hr, hq]
    · simp only [outcomeOf, adjOutcome, hr, hq, hK.adjugate.resGrid_eq]
  | inv =>
    rcases keyShape_cases_of_sameKey h with ⟨e, hr, hq⟩ | ⟨n, hr, hq, hK⟩
    · simp only [outcomeOf, invOutcome, hr, hq]
    · simp only [outcomeOf, invOutcome, hr, hq, hK.det_eq, hK.invMat.resGrid_eq]
  | check =>
    have hK := (agreeOn_keyOperand_of_sameKey h).keyInvertible_eq
    obtain ⟨hrows, hcols, -⟩ := h
    rw [outcomeOf, outcomeOf, checkOutcome, checkOutcome, hK, hrows, hcols]
  | enc =>
    obtain ⟨hkey, hvin⟩ := h
    exact codecOutcome_congr (B := fun _ A => A) hkey hvin fun _ _ _ hA => hA
  | dec =>
    obtain ⟨hkey, hvin⟩ := h
    exact codecOutcome_congr (B := invMat) hkey hvin fun _ _ _ hA => hA.invMat

/-- Successes of one command with one result leave the same values in the registers it writes (30_encoding.md R79). -/
theorem Commits.sameWrites_succeed {i : Instr} {w : Result} (h : Commits i w) (r q : Regs) :
    sameWrites i (r.succeed w) (q.succeed w) := by
  cases h with
  | nop => trivial
  | _ => rfl

/-- The operand registers hold all that a command reads (R79). -/
theorem sameOperands.sameReads {r q : Regs} (h : sameOperands r q) (i : Instr) : sameReads i r q := by
  have hkey : sameKey r q := ⟨h.krows, h.kcols, fun _ _ _ _ => by rw [h.key]⟩
  cases i with
  | nop => trivial
  | modinv => exact h.scalarIn
  | det | adj | inv | check => exact hkey
  | enc | dec => exact ⟨hkey, fun _ _ => by rw [h.vin]⟩

/-! ## The completion of the command in flight -/

/-- The outcome of the word in PENDING: its command's, or ILLEGAL_CMD (40_command_lifecycle.md R100). -/
def pendingOutcome (r : Regs) : Except ErrCode Result :=
  match decode r.pending with
  | .ok i => outcomeOf i r
  | .error _ => .error .illegalCmd

theorem unitTurn_eq_commit {s : State} (hrst : s.rst = false) (hbusy : s.regs.busy = true) :
    unitTurn s = .next { s with regs := s.regs.commit (pendingOutcome s.regs) } := by
  rcases unitTurn_cases s with ⟨h, -⟩ | ⟨-, h, -⟩ | ⟨-, -, ⟨i, hdec, h⟩ | ⟨e, hdec, h⟩⟩
  · simp [hrst] at h
  · simp [hbusy] at h
  · rw [h, exec_eq_commit, pendingOutcome, hdec]
  · rw [h, complete_eq_commit, pendingOutcome, hdec]

/-- The step that is the command unit's by `completesNext` is its turn. -/
theorem step_of_completesNext {s : State} {rest : List Turn} (h : completesNext s rest) :
    step s = unitTurn { s with schedule := rest } := by
  obtain ⟨-, hbusy, hsched | ⟨hsched, rfl⟩⟩ := h
  · exact step_scheduled s _ _ hsched
  · rw [step_unscheduled s hsched, unscheduledTurn, if_pos hbusy, ← hsched]
    rfl

theorem unitTurn_of_decode {s : State} {i : Instr} (hrst : s.rst = false) (hbusy : s.regs.busy = true)
    (hdec : decode s.regs.pending = .ok i) : unitTurn s = exec i s := by
  simp [unitTurn, hrst, hbusy, hdec]

/-- The table's number read as a word is the command's encoding (30_encoding.md R73). -/
theorem tableWord_tableCode (i : Instr) : tableWord 32 (tableCode i) = encode i := by
  cases i <;> rfl

/-! ## Runs with a command in flight -/

theorem sameOperands_refl (r : Regs) : sameOperands r r := ⟨rfl, rfl, rfl, rfl, rfl, rfl⟩

theorem sameOperands.trans {r q p : Regs} (h : sameOperands r q) (h' : sameOperands q p) : sameOperands r p :=
  ⟨h.krows.trans h'.krows, h.kcols.trans h'.kcols, h.ie.trans h'.ie, h.scalarIn.trans h'.scalarIn,
    h.key.trans h'.key, h.vin.trans h'.vin⟩

theorem sameOperands.symm {r q : Regs} (h : sameOperands r q) : sameOperands q r :=
  ⟨h.krows.symm, h.kcols.symm, h.ie.symm, h.scalarIn.symm, h.key.symm, h.vin.symm⟩

theorem sameResults.trans {r q p : Regs} (h : sameResults r q) (h' : sameResults q p) : sameResults r p :=
  ⟨h.det.trans h'.det, h.scalarOut.trans h'.scalarOut, h.adj.trans h'.adj, h.inv.trans h'.inv,
    h.vout.trans h'.vout, h.invertible.trans h'.invertible⟩

theorem sameResults.symm {r q : Regs} (h : sameResults r q) : sameResults q r :=
  ⟨h.det.symm, h.scalarOut.symm, h.adj.symm, h.inv.symm, h.vout.symm, h.invertible.symm⟩

/-- A dropped or ignored write, all that a host write can be while a command is in flight, leaves the operands and
PENDING (20_memory.md R58; 40_command_lifecycle.md R92). -/
theorem writeReg_inFlight {r : Regs} (hbusy : r.busy = true) (g : Reg) (v : Word) :
    sameOperands r (writeReg r g v) ∧ r.pending = (writeReg r g v).pending := by
  rcases writeReg_cases r g v with ⟨-, h⟩ | ⟨-, h⟩ | ⟨-, -, h⟩ | ⟨-, hidle, -⟩ | ⟨-, -, h⟩ | ⟨-, hidle, -⟩
  case inr.inr.inr.inl | inr.inr.inr.inr.inr => simp [hbusy] at hidle
  all_goals
    rw [h]
    exact ⟨⟨rfl, rfl, rfl, rfl, rfl, rfl⟩, rfl⟩

/-- In `t` the command in flight in `s` is still in flight, out of reset, with the same word, operands and results. -/
structure StillInFlight (s t : State) : Prop where
  rst : t.rst = false
  busy : t.regs.busy = true
  pending : t.regs.pending = s.regs.pending
  operands : sameOperands s.regs t.regs
  results : sameResults s.regs t.regs

theorem StillInFlight.trans {s t u : State} (h : StillInFlight s t) (h' : StillInFlight t u) : StillInFlight s u :=
  ⟨h'.rst, h'.busy, h'.pending.trans h.pending, h.operands.trans h'.operands, h.results.trans h'.results⟩

/-- A scheduled host turn leaves the command in flight and takes the turn from the schedule (R92). -/
theorem step_host_inFlight {s : State} {rest : List Turn} (hrst : s.rst = false) (hbusy : s.regs.busy = true)
    (hsched : s.schedule = .host :: rest) : ∃ t, step s = .next t ∧ StillInFlight s t ∧ t.schedule = rest := by
  obtain ⟨t, ht, hrst', hbusy', hrest, hops, hres, hpending, -⟩ :=
    hostTurn_inFlight { s with schedule := rest } hrst hbusy
  exact ⟨t, (step_scheduled s _ _ hsched).trans ht, ⟨hrst', hbusy', hpending, hops, hres⟩, hrest⟩

/-- Any number of host turns leaves the command in flight (R92, R96). -/
theorem run_hostTurns_inFlight (k m : Nat) {s : State} {rest : List Turn} (hrst : s.rst = false)
    (hbusy : s.regs.busy = true) (hsched : s.schedule = List.replicate k .host ++ rest) :
    ∃ t, core.run (k + m) s = core.run m t ∧ StillInFlight s t ∧ t.schedule = rest := by
  induction k generalizing s with
  | zero =>
    exact ⟨s, by rw [Nat.zero_add], ⟨hrst, hbusy, rfl, sameOperands_refl _, sameResults_refl _⟩, hsched⟩
  | succ k ih =>
    obtain ⟨u, hstep, hu, hrest⟩ := step_host_inFlight hrst hbusy hsched
    obtain ⟨t, hrun, ht, htrest⟩ := ih hu.rst hu.busy hrest
    exact ⟨t, by rw [Nat.succ_add, run_next hstep, hrun], hu.trans ht, htrest⟩

/-- The scheduled completion step commits the outcome of PENDING (R93). -/
theorem run_unit_inFlight {s : State} {rest : List Turn} (hrst : s.rst = false) (hbusy : s.regs.busy = true)
    (hsched : s.schedule = .unit :: rest) :
    ∃ t, core.run 1 s = .next t ∧ t.regs = s.regs.commit (pendingOutcome s.regs) :=
  ⟨_, run_next ((step_scheduled s _ _ hsched).trans
    (unitTurn_eq_commit (s := { s with schedule := rest }) hrst hbusy)), rfl⟩

/-- The outcome of the command still in flight is the one it had (R96). -/
theorem StillInFlight.pendingOutcome_eq {s t : State} (h : StillInFlight s t) :
    pendingOutcome t.regs = pendingOutcome s.regs := by
  rw [pendingOutcome, pendingOutcome, h.pending]
  cases decode s.regs.pending with
  | ok i => exact (outcomeOf_congr (h.operands.sameReads i)).symm
  | error e => rfl

/-- Where no turn asserts RST, the command in flight completes at the latest in the step after the last scheduled turn
(40_command_lifecycle.md R102; log entry 5). -/
theorem run_completes {s : State} (turns : List Turn) (hrst : s.rst = false) (hbusy : s.regs.busy = true)
    (hsched : s.schedule = turns) (hno : .assertRst ∉ turns) :
    ∃ k t, k ≤ turns.length + 1 ∧ core.run k s = .next t ∧ t.regs.busy = false ∧ t.regs.done = true := by
  induction turns generalizing s with
  | nil =>
    obtain ⟨t, hstep, halone, hdone, -⟩ := step_completes_unscheduled hrst hbusy hsched
    exact ⟨1, t, le_refl 1, run_next hstep, halone.idle, hdone⟩
  | cons turn rest ih =>
    obtain ⟨hne, hno⟩ := not_or.1 (List.mem_cons.not.1 hno)
    have after_step : ∀ u, step s = .next u → u.rst = false → u.regs.busy = true → u.schedule = rest →
        ∃ k t, k ≤ rest.length + 1 + 1 ∧ core.run k s = .next t ∧ t.regs.busy = false ∧ t.regs.done = true := by
      intro u hstep hrst' hbusy' hrest
      obtain ⟨k, t, hk, hrun, hidle, hdone⟩ := ih hrst' hbusy' hrest hno
      exact ⟨k + 1, t, by omega, (run_next hstep).trans hrun, hidle, hdone⟩
    cases turn with
    | host =>
      obtain ⟨u, hstep, hu, hrest⟩ := step_host_inFlight hrst hbusy hsched
      exact after_step u hstep hu.rst hu.busy hrest
    | unit =>
      obtain ⟨t, hrun, ht⟩ := run_unit_inFlight hrst hbusy hsched
      exact ⟨1, t, by omega, hrun, by simp [ht], by simp [ht]⟩
    | assertRst => exact absurd rfl hne
    | releaseRst =>
      exact after_step { s with schedule := rest }
        ((step_scheduled s _ _ hsched).trans (takeTurn_releaseRst_of_released hrst)) hrst hbusy rfl

end Sys2Proof.Machine

namespace Sys2Proof.Proofs

open Sys2Proof.Machine Sys2Proof.Claims

/-- Settles O10: a completion commits the outcome, and the commit of an error is `fail`. -/
theorem failedCompletionWritesOnlyTheOutcome : Obligations.FailedCompletionWritesOnlyTheOutcome := by
  intro i s
  refine ⟨_, exec_eq_commit i s, by simp, by simp, fun hfail => ?_⟩
  cases ho : outcomeOf i s.regs with
  | ok w => simp [ho, Regs.commit] at hfail
  | error e => rfl

/-- Settles O12: the outcome is a function of the operands read, and what it commits is a function of the outcome. -/
theorem outcomeDependsOnlyOnTheOperandsRead : Obligations.OutcomeDependsOnlyOnTheOperandsRead := by
  intro i s s' h
  have ho := outcomeOf_congr h
  refine ⟨_, _, exec_eq_commit i s, exec_eq_commit i s', ?_, fun hok => ?_⟩
  · rw [← ho]
    exact Regs.commit_errcode_congr ..
  · obtain ⟨w, hw⟩ := outcomeOf_ok_of_noError hok
    rw [← ho, hw]
    exact (outcomeOf_commits hw).sameWrites_succeed s.regs s'.regs

/-- Settles O22: a success commits an array of the key's dimension, which is 0 beyond it. -/
theorem successZeroesEntriesBeyondTheDimension : Obligations.SuccessZeroesEntriesBeyondTheDimension := by
  intro s t n hshape
  have hn := (keyShape_ok_iff_shape s.regs n).2 hshape
  refine ⟨fun h hok i j hout => ?_, fun h hok i j hout => ?_, fun h hok k hout => ?_⟩
  · obtain ⟨w, hw, ht⟩ := exec_success h hok
    obtain rfl := Except.ok.inj ((adjOutcome_ok hn).symm.trans hw)
    rw [ht]
    exact resGrid_get_beyond hout _
  · obtain ⟨w, hw, ht⟩ := exec_success h hok
    obtain ⟨A, rfl⟩ := invOutcome_ok_grid hn hw
    rw [ht]
    exact resGrid_get_beyond hout A
  · have hvec : ∃ f, t.regs = s.regs.succeed (.vout (resVec n f)) := by
      rcases h with h | h <;> obtain ⟨w, hw, ht⟩ := exec_success h hok
      · obtain ⟨f, rfl⟩ := codecOutcome_ok_vec (B := fun _ A => A) hn hw
        exact ⟨f, ht⟩
      · obtain ⟨f, rfl⟩ := codecOutcome_ok_vec (B := invMat) hn hw
        exact ⟨f, ht⟩
    obtain ⟨f, ht⟩ := hvec
    rw [ht]
    exact resVec_get_beyond hout f

/-- Settles O45, by the case analysis of what one step can do: a reset or a completion lowers BUSY, and a host write
while BUSY = 1 stores nothing. -/
theorem operandsAreStableWhileInFlight : Obligations.OperandsAreStableWhileInFlight := by
  intro s t _ h hs ht
  cases step_effect h with
  | reset _ hregs => simp [hregs, Regs.reset] at ht
  | idle _ hregs => exact hregs ▸ ⟨sameOperands_refl _, rfl⟩
  | write g v _ _ hregs => exact hregs ▸ writeReg_inFlight hs g v
  | success _ _ _ _ _ _ _ hregs => simp [hregs] at ht
  | failure _ _ _ _ hregs => simp [hregs] at ht

/-- Settles O46, by induction on the host's turns: they leave PENDING, the operands and the results, of which the
completion's outcome and what it commits are functions. -/
theorem completionTimeDoesNotChangeTheOutcome : Obligations.CompletionTimeDoesNotChangeTheOutcome := by
  intro s k rest hrst hbusy
  obtain ⟨v, hwait, hv, hsched⟩ :=
    run_hostTurns_inFlight k 1 (s := { s with schedule := List.replicate k .host ++ .unit :: rest }) hrst hbusy rfl
  obtain ⟨t, hlate, ht⟩ := run_unit_inFlight hv.rst hv.busy hsched
  obtain ⟨u, hnow, hu⟩ := run_unit_inFlight (s := { s with schedule := .unit :: rest }) hrst hbusy rfl
  refine ⟨t, u, hwait.trans hlate, hnow, ?_⟩
  rw [ht, hu, hv.pendingOutcome_eq]
  exact ⟨hv.results.symm.commit _, Regs.commit_errcode_congr ..,
    ((sameOperands_commit v.regs _).symm.trans hv.operands.symm).trans (sameOperands_commit s.regs _),
    Regs.commit_busy .., Regs.commit_done ..⟩

/-- Settles O47, by induction on the schedule. -/
theorem acceptedCommandsComplete : Obligations.AcceptedCommandsComplete :=
  fun _ hrst hbusy hno => run_completes _ hrst hbusy rfl hno

/-- Settles O5: the step is the command unit's turn, which runs the command PENDING decodes to. -/
theorem stepRunsTheDecodedCommand : Obligations.StepRunsTheDecodedCommand := by
  intro s rest i hnext hdec
  have ⟨hrst, hbusy, _⟩ := hnext
  rw [step_of_completesNext hnext]
  exact unitTurn_of_decode hrst hbusy hdec

/-- Settles O6: the accepted word is the command's encoding, which is decoded at the unit's turn just scheduled. -/
theorem fetchedWordRunsNext : Obligations.FetchedWordRunsNext := by
  intro s i
  rw [State.withFetchWord, tableWord_tableCode]
  exact stepRunsTheDecodedCommand (withCommand s (encode i)) s.schedule i ⟨rfl, rfl, .inl rfl⟩
    ((decode_eq_ok_iff _ i).2 rfl)

/-- Settles O8: the host's next item is a write that reaches CMD of an idle block. -/
theorem idleCommandWriteIsAccepted : Obligations.IdleCommandWriteIsAccepted := by
  rintro s _ w hnext rfl hidle
  have hwrite : access s.regs (.write 0x010 4 w) = (.written, s.regs.accept w) := access_write_cmd_idle hidle w
  rw [step_of_hostNext hnext, runHostOp, hwrite]
  rfl

/-- Settles O14: NOP's success commits no result. -/
theorem nopOnlyCompletes : Obligations.NopOnlyCompletes :=
  ⟨(decode_eq_ok_iff _ .nop).2 rfl, fun s => exec_eq_commit .nop s⟩

/-- Settles O55: both steps take the turn `unscheduledTurn` gives. -/
theorem unscheduledTurnIsTheModelsChoice : Obligations.UnscheduledTurnIsTheModelsChoice := by
  intro s hsched
  rw [step_unscheduled s hsched, step_scheduled _ _ [] rfl, unscheduledTurn, ← hsched]

end Sys2Proof.Proofs

namespace Sys2Proof.Machine

open Sys2Proof.Claims

/-! ## Residues, units and scalar inverses -/

/-- `mod26` is the residue of R110, and no other integer is. -/
theorem mod26_eq_iff (x r : Int) : mod26 x = r ↔ 0 ≤ r ∧ r ≤ 25 ∧ (26 : Int) ∣ x - r := by
  simp only [mod26, Config.modulus]
  omega

/-- Congruence mod 26, the library's relation, is equality of the residues (41_matrix_algebra.md R110). -/
theorem mod26_eq_mod26_iff (x y : Int) : mod26 x = mod26 y ↔ x ≡ y [ZMOD 26] := Iff.rfl

theorem mod26_modEq (x : Int) : mod26 x ≡ x [ZMOD 26] := Int.mod_modEq x 26

theorem mod26_of_range {r : Int} (h0 : 0 ≤ r) (h1 : r ≤ 25) : mod26 r = r :=
  (mod26_eq_iff r r).2 ⟨h0, h1, by simp⟩

theorem isUnit_iff (r : Int) : isUnit r = true ↔ Int.gcd r 26 = 1 := decide_eq_true_iff

/-- Reduction keeps the gcd with 26, so the unit test may be made before it (R111, R118). -/
theorem isUnit_mod26_iff (x : Int) : isUnit (mod26 x) = true ↔ Int.gcd x 26 = 1 := by
  rw [isUnit_iff]
  exact Eq.congr_left (Int.gcd_emod x 26)

/-- Two multipliers that take `a` to 1 mod 26 are congruent: each is the other times a product that is 1. -/
theorem modEq_of_mul_modEq_one {a x y : Int} (hx : a * x ≡ 1 [ZMOD 26]) (hy : a * y ≡ 1 [ZMOD 26]) :
    x ≡ y [ZMOD 26] :=
  calc
    x = x * 1 := (mul_one x).symm
    _ ≡ x * (a * y) [ZMOD 26] := hy.symm.mul_left x
    _ = a * x * y := by ring
    _ ≡ 1 * y [ZMOD 26] := hx.mul_right y
    _ = y := one_mul y

theorem mul_inv26_modEq_one {a : Int} (h : isUnit (mod26 a) = true) : a * inv26 (mod26 a) ≡ 1 [ZMOD 26] := by
  obtain ⟨-, -, hmul, -⟩ := inv26_spec a h
  exact ((mod26_modEq a).symm.mul_right _).trans ((mod26_eq_mod26_iff _ 1).1 hmul)

/-- The scalar inverse of a unit is the one integer in [1, 25] whose product with it is 1 mod 26 (R112). -/
theorem inv26_mod26_eq_iff {a : Int} (h : isUnit (mod26 a) = true) (x : Int) :
    inv26 (mod26 a) = x ↔ 1 ≤ x ∧ x ≤ 25 ∧ mod26 (a * x) = 1 := by
  obtain ⟨hlo, hhi, -, -⟩ := inv26_spec a h
  have hone := mul_inv26_modEq_one h
  constructor
  · rintro rfl
    exact ⟨hlo, hhi, hone⟩
  · rintro ⟨hx0, hx1, hx⟩
    have hcongr : mod26 (inv26 (mod26 a)) = mod26 x := modEq_of_mul_modEq_one hone hx
    rwa [mod26_of_range (by omega) hhi, mod26_of_range (by omega) hx1] at hcongr

/-! ## The model's matrices as the library's -/

/-- The n×n part of a matrix, as a matrix of the library. -/
def toMatrix (n : Nat) (A : Mat) : Matrix (Fin n) (Fin n) Int := Matrix.of fun i j => A i.val j.val

@[simp] theorem toMatrix_apply (n : Nat) (A : Mat) (i j : Fin n) : toMatrix n A i j = A i.val j.val := rfl

theorem sumTo_eq_sum (n : Nat) (f : Nat → Int) : sumTo n f = ∑ k ∈ Finset.range n, f k := by
  induction n with
  | zero => rfl
  | succ n ih => rw [sumTo, ih, Finset.sum_range_succ]

theorem sign_eq_neg_one_pow (k : Nat) : sign k = (-1) ^ k := by
  unfold sign
  split_ifs with h
  · exact (Even.neg_one_pow (Nat.even_iff.2 h)).symm
  · exact (Odd.neg_one_pow (Nat.odd_iff.2 (by omega))).symm

/-- The order embedding that skips an index, as R113 writes it. -/
theorem succAbove_val {n : Nat} (p : Fin (n + 1)) (i : Fin n) :
    (p.succAbove i).val = i.val + if i.val ≥ p.val then 1 else 0 := by
  rw [Fin.succAbove]
  split_ifs with hlt hge hge
  · exact absurd hge (Nat.not_le.2 hlt)
  · rfl
  · rfl
  · exact absurd (Nat.not_le.1 hge) hlt

/-- The minor of R113 is the library's submatrix without that row and column. -/
theorem toMatrix_minor {n : Nat} (A : Mat) (r c : Fin (n + 1)) :
    toMatrix n (minor A r.val c.val) = (toMatrix (n + 1) A).submatrix r.succAbove c.succAbove := by
  ext i j
  simp only [toMatrix_apply, Matrix.submatrix_apply, succAbove_val, minor]

/-- The expansion of R114 with the library's sum and sign. -/
theorem det_add_two (n : Nat) (A : Mat) :
    det (n + 2) A = ∑ j ∈ Finset.range (n + 2), (-1) ^ j * A 0 j * det (n + 1) (minor A 0 j) := by
  simp only [det, sumTo_eq_sum, sign_eq_neg_one_pow]

/-- The determinant of R114 is the library's: both expand along row 0. -/
theorem det_eq_det_toMatrix (n : Nat) (A : Mat) : det n A = (toMatrix n A).det := by
  induction n using Nat.twoStepInduction generalizing A with
  | zero => exact Matrix.det_fin_zero.symm
  | one => exact (Matrix.det_fin_one (toMatrix 1 A)).symm
  | more n _ ih =>
    rw [det_add_two, Finset.sum_range, Matrix.det_succ_row_zero]
    refine Finset.sum_congr rfl fun j _ => ?_
    have hminor := toMatrix_minor A 0 j
    rw [Fin.succAbove_zero] at hminor
    rw [ih, ← hminor]
    rfl

theorem adjugate_apply (n : Nat) (A : Mat) (i j : Nat) :
    adjugate n A i j = (-1) ^ (i + j) * det (n - 1) (minor A j i) := by
  rw [adjugate, cof, sign_eq_neg_one_pow, add_comm]

/-- The adjugate of R116 is the library's. -/
theorem toMatrix_adjugate {n : Nat} (hn : 1 ≤ n) (A : Mat) :
    toMatrix n (adjugate n A) = (toMatrix n A).adjugate := by
  obtain ⟨m, rfl⟩ : ∃ m, n = m + 1 := ⟨n - 1, by omega⟩
  ext i j
  rw [toMatrix_apply, adjugate_apply, Nat.add_sub_cancel, det_eq_det_toMatrix, toMatrix_minor, add_comm,
    Matrix.adjugate_fin_succ_eq_det_submatrix]

theorem toMatrix_mul_apply (n : Nat) (A B : Mat) (i j : Fin n) :
    (toMatrix n A * toMatrix n B) i j = ∑ c ∈ Finset.range n, A i.val c * B c j.val := by
  rw [Matrix.mul_apply, Finset.sum_range]
  rfl

/-! ## The inverse matrix -/

theorem invMat_modEq (n : Nat) (A : Mat) (i j : Nat) :
    invMat n A i j ≡ inv26 (mod26 (det n A)) * adjugate n A i j [ZMOD 26] :=
  mod26_modEq _

@[simp] theorem mod26_invMat (n : Nat) (A : Mat) (i j : Nat) : mod26 (invMat n A i j) = invMat n A i j :=
  mod26_mod26 _

/-- A product with the inverse matrix on the right is, mod 26, the scalar inverse times that with the adjugate. -/
theorem sum_mul_invMat_modEq (n : Nat) (A : Mat) (i j : Nat) :
    ∑ c ∈ Finset.range n, A i c * invMat n A c j
      ≡ inv26 (mod26 (det n A)) * ∑ c ∈ Finset.range n, A i c * adjugate n A c j [ZMOD 26] := by
  rw [Finset.mul_sum]
  refine Int.ModEq.sum fun c _ => ?_
  rw [mul_left_comm]
  exact (invMat_modEq n A c j).mul_left _

/-- The same with the inverse matrix on the left. -/
theorem sum_invMat_mul_modEq (n : Nat) (A : Mat) (i j : Nat) :
    ∑ c ∈ Finset.range n, invMat n A i c * A c j
      ≡ inv26 (mod26 (det n A)) * ∑ c ∈ Finset.range n, adjugate n A i c * A c j [ZMOD 26] := by
  rw [Finset.mul_sum]
  refine Int.ModEq.sum fun c _ => ?_
  rw [← mul_assoc]
  exact (invMat_modEq n A i c).mul_right _

/-- The scalar inverse turns det(A) times the identity into the identity mod 26. -/
theorem mod26_inv26_mul_det_smul_one {n : Nat} {A : Mat} (h : keyInvertible n A = true) (i j : Fin n) :
    mod26 (inv26 (mod26 (det n A)) * ((toMatrix n A).det • (1 : Matrix (Fin n) (Fin n) Int)) i j)
      = if i.val = j.val then 1 else 0 := by
  rw [← det_eq_det_toMatrix, Matrix.smul_apply, Matrix.one_apply, smul_eq_mul]
  simp only [Fin.ext_iff]
  split_ifs
  · rw [mul_one, mul_comm]
    exact mul_inv26_modEq_one h
  · simp [mod26]

theorem mod26_sum_mul_invMat {n : Nat} {A : Mat} (hn : 1 ≤ n) (h : keyInvertible n A = true) (i j : Fin n) :
    mod26 (∑ c ∈ Finset.range n, A i.val c * invMat n A c j.val) = if i.val = j.val then 1 else 0 := by
  rw [(mod26_eq_mod26_iff _ _).2 (sum_mul_invMat_modEq n A i j), ← toMatrix_mul_apply, toMatrix_adjugate hn,
    Matrix.mul_adjugate, mod26_inv26_mul_det_smul_one h]

theorem mod26_sum_invMat_mul {n : Nat} {A : Mat} (hn : 1 ≤ n) (h : keyInvertible n A = true) (i j : Fin n) :
    mod26 (∑ c ∈ Finset.range n, invMat n A i.val c * A c j.val) = if i.val = j.val then 1 else 0 := by
  rw [(mod26_eq_mod26_iff _ _).2 (sum_invMat_mul_modEq n A i j), ← toMatrix_mul_apply, toMatrix_adjugate hn,
    Matrix.adjugate_mul, mod26_inv26_mul_det_smul_one h]

/-! ## The operands and their checks in the words of the statements -/

/-- The model reads the key as the statements do, sign-extended (10_state.md R44). -/
theorem keyOperand_eq_signedKey (r : Regs) : keyOperand r = signedKey r := rfl

theorem keyShape_of_dimBad {r : Regs} (h : dimBad r) : keyShape r = .error .keyDim := by
  refine if_pos ?_
  simp only [dimBad, Config.nmin, Config.nmax] at h ⊢
  omega

theorem keyShape_of_nonsquare {r : Regs} (h : nonsquare r) : keyShape r = .error .keyNonsquare := by
  obtain ⟨hdim, hne⟩ := h
  refine (if_neg ?_).trans (if_pos hne)
  simp only [dimBad, Config.nmin, Config.nmax] at hdim ⊢
  omega

/-- The key's invertibility is that of its unreduced determinant (41_matrix_algebra.md R118). -/
theorem unitDet_iff_keyInvertible (r : Regs) (n : Nat) : unitDet r n ↔ keyInvertible n (keyOperand r) = true := by
  rw [unitDet, ← keyOperand_eq_signedKey]
  exact (isUnit_mod26_iff _).symm

theorem eq_of_shape {r : Regs} {n m : Nat} (hn : shape r n) (hm : shape r m) : n = m := by
  obtain ⟨-, -, hrn, -⟩ := hn
  obtain ⟨-, -, hrm, -⟩ := hm
  exact hrn.symm.trans hrm

/-! ## The commands' outcomes in the words of the statements -/

theorem exec_of_outcomeOf_ok {i : Instr} {s : State} {w : Result} (h : outcomeOf i s.regs = .ok w) :
    exec i s = .next { s with regs := s.regs.succeed w } := by
  rw [exec_eq_complete, h, complete_ok]

theorem failsWith_of_outcomeOf {i : Instr} {s : State} {e : ErrCode} (h : outcomeOf i s.regs = .error e) :
    failsWith i s e := by
  rw [failsWith, exec_eq_complete, h, complete_error]
  rfl

/-- A command that passes on the errors of the shape check has the shape errors of R97. -/
theorem shapeErrors_of_outcomeOf {i : Instr} {s : State}
    (h : ∀ e, keyShape s.regs = .error e → outcomeOf i s.regs = .error e) : shapeErrors i s :=
  ⟨fun hdim => failsWith_of_outcomeOf (h _ (keyShape_of_dimBad hdim)),
    fun hns => failsWith_of_outcomeOf (h _ (keyShape_of_nonsquare hns))⟩

theorem detOutcome_error {r : Regs} {e : ErrCode} (h : keyShape r = .error e) : detOutcome r = .error e := by
  simp only [detOutcome, h]

/-- MODINV's outcomes (41_matrix_algebra.md R121). -/
theorem modinvOutcome_ok {r : Regs} (h : isUnit (mod26 r.scalarIn.toInt) = true) :
    modinvOutcome r = .ok (.scalarOut (toRes (inv26 (mod26 r.scalarIn.toInt)))) :=
  if_pos h

theorem modinvOutcome_not_invertible {r : Regs} (h : ¬isUnit (mod26 r.scalarIn.toInt) = true) :
    modinvOutcome r = .error .notInvertible :=
  if_neg h

theorem adjOutcome_error {r : Regs} {e : ErrCode} (h : keyShape r = .error e) : adjOutcome r = .error e := by
  simp only [adjOutcome, h]

theorem invOutcome_error {r : Regs} {e : ErrCode} (h : keyShape r = .error e) : invOutcome r = .error e := by
  simp only [invOutcome, h]

/-- INV's error on a determinant that is no unit (41_matrix_algebra.md R123). -/
theorem invOutcome_not_invertible {r : Regs} {n : Nat} (h : keyShape r = .ok n)
    (hu : ¬keyInvertible n (keyOperand r) = true) : invOutcome r = .error .notInvertible := by
  simp only [invOutcome, h]
  exact if_neg hu

/-- CHECK on a key with a dimension answers its invertibility (R124). -/
theorem checkOutcome_of_shape {r : Regs} {n : Nat} (h : shape r n) :
    checkOutcome r = .ok (.invertible (keyInvertible n (keyOperand r))) := by
  obtain ⟨h2, h4, hrows, rfl⟩ := (keyShape_ok_iff r n).1 ((keyShape_ok_iff_shape r n).2 h)
  exact if_pos ⟨h2, h4, hrows⟩

/-- CHECK on a bad shape answers 0 (R124). -/
theorem checkOutcome_of_no_shape {r : Regs} (h : ∀ n, ¬shape r n) : checkOutcome r = .ok (.invertible false) :=
  if_neg fun ⟨h2, h4, hsquare⟩ => h _ ⟨h2, h4, rfl, hsquare ▸ rfl⟩

/-- The array a matrix result is stored in: the entries mod 26 inside the dimension, 0 outside
(40_command_lifecycle.md R98). -/
theorem holdsGrid_resGrid (n : Nat) (A : Mat) : holdsGrid n (resGrid n A) fun i j => mod26 (A i j) := by
  intro i j
  rw [resGrid_get]
  split_ifs
  · exact toRes_mod26_toNat _
  · rfl

/-- The inverse matrix is stored without a further reduction, its entries being residues (R117). -/
theorem holdsGrid_resGrid_invMat (n : Nat) (A : Mat) : holdsGrid n (resGrid n (invMat n A)) (invMat n A) := by
  simpa only [mod26_invMat] using holdsGrid_resGrid n (invMat n A)

end Sys2Proof.Machine

namespace Sys2Proof.Proofs

open Sys2Proof.Machine Sys2Proof.Claims

/-- Settles O15: DET commits the determinant's residue, and its only errors are the shape check's. -/
theorem detWritesTheDeterminantMod26 : Obligations.DetWritesTheDeterminantMod26 := by
  refine ⟨(decode_eq_ok_iff _ .det).2 rfl, fun s =>
    ⟨fun n hshape => ?_, shapeErrors_of_outcomeOf fun _ => detOutcome_error⟩⟩
  have hn := (keyShape_ok_iff_shape s.regs n).2 hshape
  rw [← keyOperand_eq_signedKey]
  exact ⟨_, toRes_mod26_toNat _, exec_of_outcomeOf_ok (i := .det) (detOutcome_ok hn)⟩

/-- Settles O16: the value MODINV commits is the scalar inverse, which is the one solution in [1, 25]. -/
theorem modinvWritesTheScalarInverse : Obligations.ModinvWritesTheScalarInverse := by
  refine ⟨(decode_eq_ok_iff _ .modinv).2 rfl, fun s => ⟨fun hgcd => ?_, fun hgcd => ?_⟩⟩
  · have hunit := (isUnit_mod26_iff s.regs.scalarIn.toInt).2 hgcd
    have hinv := inv26_mod26_eq_iff hunit
    obtain ⟨hlo, hhi, hone⟩ := (hinv _).1 rfl
    have hval := toRes_toNat (x := inv26 (mod26 s.regs.scalarIn.toInt)) (by omega) (by omega)
    refine ⟨toRes (inv26 (mod26 s.regs.scalarIn.toInt)), by omega, by omega, by rw [hval]; exact hone,
      fun y hy0 hy1 hy => ?_, exec_of_outcomeOf_ok (i := .modinv) (modinvOutcome_ok hunit)⟩
    have hy' := (hinv y).2 ⟨by omega, by omega, hy⟩
    omega
  · exact failsWith_of_outcomeOf (modinvOutcome_not_invertible (mt (isUnit_mod26_iff _).1 hgcd))

/-- Settles O17: ADJ commits the adjugate's array, and its only errors are the shape check's. -/
theorem adjWritesTheAdjugateMod26 : Obligations.AdjWritesTheAdjugateMod26 := by
  refine ⟨(decode_eq_ok_iff _ .adj).2 rfl, fun s =>
    ⟨fun n hshape => ?_, shapeErrors_of_outcomeOf fun _ => adjOutcome_error⟩⟩
  have hn := (keyShape_ok_iff_shape s.regs n).2 hshape
  rw [← keyOperand_eq_signedKey]
  exact ⟨_, holdsGrid_resGrid n _, exec_of_outcomeOf_ok (i := .adj) (adjOutcome_ok hn)⟩

/-- Settles O18: INV commits the inverse matrix's array where the determinant is a unit, and fails otherwise. -/
theorem invWritesTheInverseMod26 : Obligations.InvWritesTheInverseMod26 := by
  refine ⟨(decode_eq_ok_iff _ .inv).2 rfl, fun s =>
    ⟨fun n hshape => ?_, shapeErrors_of_outcomeOf fun _ => invOutcome_error⟩⟩
  have hn := (keyShape_ok_iff_shape s.regs n).2 hshape
  rw [unitDet_iff_keyInvertible, ← keyOperand_eq_signedKey]
  exact ⟨
    fun hunit => ⟨_, holdsGrid_resGrid_invMat n _, exec_of_outcomeOf_ok (i := .inv) (invOutcome_ok hn hunit)⟩,
    fun hunit => failsWith_of_outcomeOf (invOutcome_not_invertible hn hunit)⟩

/-- Settles O19: CHECK succeeds with the key's invertibility where the key has a dimension, and with 0 elsewhere. -/
theorem checkWritesInvertible : Obligations.CheckWritesInvertible := by
  refine ⟨(decode_eq_ok_iff _ .check).2 rfl, fun s => ?_⟩
  by_cases hshape : ∃ n, shape s.regs n
  · obtain ⟨n, hn⟩ := hshape
    refine ⟨_, ?_, exec_of_outcomeOf_ok (i := .check) (checkOutcome_of_shape hn)⟩
    rw [← unitDet_iff_keyInvertible]
    exact ⟨fun hunit => ⟨n, hn, hunit⟩, fun ⟨_, hm, hunit⟩ => eq_of_shape hn hm ▸ hunit⟩
  · exact ⟨false, iff_of_false Bool.false_ne_true fun ⟨n, hn, _⟩ => hshape ⟨n, hn⟩,
      exec_of_outcomeOf_ok (i := .check) (checkOutcome_of_no_shape (not_exists.1 hshape))⟩

/-- Settles O26, by `det_eq_det_toMatrix`: the library's determinant has the same expansion along row 0. -/
theorem determinantIsTheExactRowExpansion : Obligations.DeterminantIsTheExactRowExpansion := by
  refine ⟨fun _ => rfl, det_add_two, fun A => ?_, fun A => ?_, fun n A _ => det_eq_det_toMatrix n A⟩
  · rw [det_eq_det_toMatrix, Matrix.det_fin_two]
    rfl
  · rw [det_eq_det_toMatrix, Matrix.det_fin_three]
    simp only [toMatrix_apply, Fin.val_zero, Fin.val_one, Fin.val_two]
    ring

/-- Settles O27, by `toMatrix_adjugate`: minors are submatrices, so the cofactors are the library's. -/
theorem adjugateIsTheTransposedCofactorMatrix : Obligations.AdjugateIsTheTransposedCofactorMatrix :=
  fun n A hn => ⟨fun i j _ _ => adjugate_apply n A i j,
    fun i j => congrFun₂ (toMatrix_adjugate (by omega) A) i j⟩

/-- Settles O28: a product with the inverse matrix is congruent to inv26(det A)·det(A) times the identity. -/
theorem inverseMatrixIsTwoSided : Obligations.InverseMatrixIsTwoSided := by
  intro n A hn h i j hi hj
  have hn' : 1 ≤ n := by omega
  exact ⟨mod26_sum_mul_invMat hn' h ⟨i, hi⟩ ⟨j, hj⟩, mod26_sum_invMat_mul hn' h ⟨i, hi⟩ ⟨j, hj⟩⟩

/-- Settles O23, by `mod26_eq_iff`. -/
theorem reductionIsTheResidueInRange : Obligations.ReductionIsTheResidueInRange := mod26_eq_iff

/-- Settles O24: the test is the gcd, and the list is checked over the residues. -/
theorem unitsAreTheListedResidues : Obligations.UnitsAreTheListedResidues := by
  refine fun r h0 h1 => ⟨isUnit_iff r, ?_⟩
  interval_cases r <;> decide

/-- Settles O25: a residue is its own reduction, so its scalar inverse is the one of `inv26_mod26_eq_iff`. -/
theorem scalarInverseIsUniqueAndTabulated : Obligations.ScalarInverseIsUniqueAndTabulated := by
  refine ⟨fun r x h0 h1 hunit => ?_, by decide⟩
  have hr := mod26_of_range h0 h1
  rw [← hr] at hunit
  simpa only [hr] using inv26_mod26_eq_iff hunit x

end Sys2Proof.Proofs

namespace Sys2Proof.Machine

open Sys2Proof.Claims

/-! ## The codec's checks in the words of the statements -/

/-- The model reads the block as the statements do, unsigned (10_state.md R45). -/
theorem vecOperand_eq_unsignedVin (r : Regs) : vecOperand r = unsignedVin r := rfl

/-- CodecKey passes exactly on a key with a dimension and a unit determinant (42_block_codec.md R141). -/
theorem codecKey_ok_iff_shape_unitDet (r : Regs) (n : Nat) : codecKey r = .ok n ↔ shape r n ∧ unitDet r n := by
  rw [codecKey_ok_iff, keyShape_ok_iff_shape, unitDet_iff_keyInvertible]

theorem codecKey_not_invertible {r : Regs} {n : Nat} (hshape : shape r n) (hunit : ¬unitDet r n) :
    codecKey r = .error .keyNotInvertible := by
  rw [unitDet_iff_keyInvertible] at hunit
  simp only [codecKey, (keyShape_ok_iff_shape r n).2 hshape, if_neg hunit]

/-- The operand entries are at most 25 exactly where the block is letters; VIN has no entry above index 3 (R140). -/
theorem lettersOk_iff_vecOperand_le {r : Regs} {n : Nat} (hn : n ≤ 4) :
    lettersOk r n ↔ ∀ k < n, vecOperand r k ≤ 25 := by
  constructor
  · exact fun h k hk => (vecOperand_apply r ⟨k, by omega⟩).trans_le (Int.ofNat_le.2 (h ⟨k, by omega⟩ hk))
  · exact fun h k hk => Int.ofNat_le.1 ((vecOperand_apply r k).ge.trans (h k hk))

theorem inputCheck_of_not_lettersOk {r : Regs} {n : Nat} (hn : n ≤ 4) (h : ¬lettersOk r n) :
    inputCheck r n = .error .invalidInput := by
  rw [lettersOk_iff_vecOperand_le hn, ← inputCheck_ok_iff] at h
  cases hcheck : inputCheck r n with
  | ok _ => exact absurd hcheck h
  | error e => rw [inputCheck_error r n e hcheck]

/-! ## The codec's outcome: the errors in their order, then the product mod 26 -/

/-- The state after a codec command that succeeded with the block of `f` (40_command_lifecycle.md R94). -/
def afterBlock (s : State) (n : Nat) (f : Nat → Int) : State :=
  { s with regs := s.regs.succeed (.vout (resVec n f)) }

theorem afterBlock_vout_toNat (s : State) {n : Nat} (f : Nat → Int) {k : Fin 4} (hk : k.val < n) :
    ((Quad.get (afterBlock s n f).regs.vout k).toNat : Int) = mod26 (f k.val) := by
  have hentry : Quad.get (afterBlock s n f).regs.vout k = toRes (mod26 (f k.val)) := by simp [afterBlock, hk]
  rw [hentry, toRes_mod26_toNat]

/-- ENC is the codec with the key itself as its matrix (42_block_codec.md R142). -/
theorem outcomeOf_enc (r : Regs) : outcomeOf .enc r = codecOutcome r fun _ A => A := rfl

/-- DEC is the codec with the inverse matrix made from KEY (R143). -/
theorem outcomeOf_dec (r : Regs) : outcomeOf .dec r = codecOutcome r invMat := rfl

section Codec

variable {r : Regs} {n : Nat} {B : Nat → Mat → Mat}

theorem codecOutcome_of_codecKey_error {e : ErrCode} (h : codecKey r = .error e) : codecOutcome r B = .error e := by
  simp only [codecOutcome, h]

theorem codecOutcome_of_keyShape_error {e : ErrCode} (h : keyShape r = .error e) : codecOutcome r B = .error e :=
  codecOutcome_of_codecKey_error (by simp only [codecKey, h])

theorem codecOutcome_not_letters (hshape : shape r n) (hunit : unitDet r n) (hletters : ¬lettersOk r n) :
    codecOutcome r B = .error .invalidInput := by
  have ⟨_, hn, _⟩ := hshape
  have hkey := (codecKey_ok_iff_shape_unitDet r n).2 ⟨hshape, hunit⟩
  simp only [codecOutcome, hkey, inputCheck_of_not_lettersOk hn hletters]

theorem codecOutcome_of_letters (hshape : shape r n) (hunit : unitDet r n) (hletters : lettersOk r n) :
    codecOutcome r B = .ok (.vout (resVec n (mulVec n (B n (keyOperand r)) (vecOperand r)))) :=
  have ⟨_, hn, _⟩ := hshape
  codecOutcome_ok B ((codecKey_ok_iff_shape_unitDet r n).2 ⟨hshape, hunit⟩)
    ((lettersOk_iff_vecOperand_le hn).1 hletters)

/-- A command with the codec's outcome has the codec's errors, in their order (R140, R141). -/
theorem codecErrors_of_outcomeOf {i : Instr} {s : State} (h : outcomeOf i s.regs = codecOutcome s.regs B) :
    codecErrors i s :=
  ⟨shapeErrors_of_outcomeOf fun _ hshape => h.trans (codecOutcome_of_keyShape_error hshape), fun _ hshape =>
    ⟨fun hunit => failsWith_of_outcomeOf
        (h.trans (codecOutcome_of_codecKey_error (codecKey_not_invertible hshape hunit))),
      fun hunit hletters => failsWith_of_outcomeOf (h.trans (codecOutcome_not_letters hshape hunit hletters))⟩⟩

/-- On a key that passes CodecKey and a block of letters a command with the codec's outcome succeeds (R142, R143). -/
theorem exec_codec {i : Instr} {s : State} (h : outcomeOf i s.regs = codecOutcome s.regs B) (hshape : shape s.regs n)
    (hunit : unitDet s.regs n) (hletters : lettersOk s.regs n) :
    exec i s = .next (afterBlock s n (mulVec n (B n (keyOperand s.regs)) (vecOperand s.regs))) :=
  exec_of_outcomeOf_ok (h.trans (codecOutcome_of_letters hshape hunit hletters))

end Codec

theorem mulVec_eq_sum (n : Nat) (A : Mat) (v : Nat → Int) (k : Nat) :
    mulVec n A v k = ∑ c ∈ Finset.range n, A k c * v c :=
  sumTo_eq_sum n _

/-- The block a vector result is stored in: the entries mod 26 below the dimension, 0 above
(40_command_lifecycle.md R98). -/
theorem holdsVec_resVec (n : Nat) (f : Nat → Int) : holdsVec n (resVec n f) fun k => mod26 (f k) := by
  intro k
  rw [resVec_get]
  split_ifs
  · exact toRes_mod26_toNat _
  · rfl

/-- The block of a matrix-vector product holds the exact sums, reduced once at the end (00_scope.md R14). -/
theorem holdsVec_mulVec (n : Nat) (A : Mat) (v : Nat → Int) :
    holdsVec n (resVec n (mulVec n A v)) fun k => mod26 (∑ c ∈ Finset.range n, A k c * v c) := by
  simpa only [mulVec_eq_sum] using holdsVec_resVec n (mulVec n A v)

end Sys2Proof.Machine

namespace Sys2Proof.Proofs

open Sys2Proof.Machine Sys2Proof.Claims

/-- Settles O20: ENC is the codec with the key itself as its matrix. -/
theorem encWritesKeyTimesVector : Obligations.EncWritesKeyTimesVector := by
  refine ⟨(decode_eq_ok_iff _ .enc).2 rfl, fun s =>
    ⟨fun n hshape hunit hletters => ?_, codecErrors_of_outcomeOf (outcomeOf_enc s.regs)⟩⟩
  rw [← keyOperand_eq_signedKey, ← vecOperand_eq_unsignedVin]
  exact ⟨_, holdsVec_mulVec n (keyOperand s.regs) _,
    exec_codec (B := fun _ A => A) (outcomeOf_enc s.regs) hshape hunit hletters⟩

/-- Settles O21: DEC is the codec with the inverse matrix made from KEY, so INV does not enter. -/
theorem decWritesInverseTimesVector : Obligations.DecWritesInverseTimesVector := by
  refine ⟨(decode_eq_ok_iff _ .dec).2 rfl, fun s =>
    ⟨fun n hshape hunit hletters => ?_, codecErrors_of_outcomeOf (outcomeOf_dec s.regs)⟩⟩
  rw [← keyOperand_eq_signedKey, ← vecOperand_eq_unsignedVin]
  exact ⟨_, holdsVec_mulVec n (invMat n (keyOperand s.regs)) _,
    exec_codec (outcomeOf_dec s.regs) hshape hunit hletters⟩

end Sys2Proof.Proofs

namespace Sys2Proof.Machine

open Sys2Proof.Claims

/-! ## Two matrices whose product is the identity mod 26 undo each other on a block -/

/-- `C` times `B` is the n×n identity mod 26. -/
def IsLeftInverseMod26 (n : Nat) (C B : Mat) : Prop :=
  ∀ i j, i < n → j < n → mod26 (∑ c ∈ Finset.range n, C i c * B c j) = if i = j then 1 else 0

/-- The inverse matrix of an invertible key is its inverse on the left (41_matrix_algebra.md R125), so DEC undoes ENC. -/
theorem isLeftInverseMod26_invMat_key {n : Nat} {A : Mat} (hn : 1 ≤ n) (h : keyInvertible n A = true) :
    IsLeftInverseMod26 n (invMat n A) A :=
  fun i j hi hj => mod26_sum_invMat_mul hn h ⟨i, hi⟩ ⟨j, hj⟩

/-- It is its inverse on the right too (R125), so ENC undoes DEC. -/
theorem isLeftInverseMod26_key_invMat {n : Nat} {A : Mat} (hn : 1 ≤ n) (h : keyInvertible n A = true) :
    IsLeftInverseMod26 n A (invMat n A) :=
  fun i j hi hj => mod26_sum_mul_invMat hn h ⟨i, hi⟩ ⟨j, hj⟩

/-- A product depends on the block mod 26 alone. -/
theorem mulVec_modEq {n : Nat} (A : Mat) {u v : Nat → Int} (h : ∀ c < n, u c ≡ v c [ZMOD 26]) (k : Nat) :
    mulVec n A u k ≡ mulVec n A v k [ZMOD 26] := by
  rw [mulVec_eq_sum, mulVec_eq_sum]
  exact Int.ModEq.sum fun c hc => (h c (Finset.mem_range.1 hc)).mul_left _

theorem mulVec_mulVec (n : Nat) (C B : Mat) (v : Nat → Int) (k : Nat) :
    mulVec n C (mulVec n B v) k = mulVec n (fun i j => ∑ c ∈ Finset.range n, C i c * B c j) v k := by
  simp only [mulVec_eq_sum, Finset.mul_sum, Finset.sum_mul, mul_assoc]
  exact Finset.sum_comm

theorem IsLeftInverseMod26.mulVec_mulVec_modEq {n : Nat} {C B : Mat} (h : IsLeftInverseMod26 n C B) (v : Nat → Int)
    {k : Nat} (hk : k < n) : mulVec n C (mulVec n B v) k ≡ v k [ZMOD 26] := by
  have hentry : ∀ c ∈ Finset.range n,
      (∑ d ∈ Finset.range n, C k d * B d c) * v c ≡ (if k = c then 1 else 0) * v c [ZMOD 26] := by
    intro c hc
    rw [← h k c hk (Finset.mem_range.1 hc)]
    exact (mod26_modEq _).symm.mul_right _
  calc
    mulVec n C (mulVec n B v) k = ∑ c ∈ Finset.range n, (∑ d ∈ Finset.range n, C k d * B d c) * v c := by
      rw [mulVec_mulVec, mulVec_eq_sum]
    _ ≡ ∑ c ∈ Finset.range n, (if k = c then 1 else 0) * v c [ZMOD 26] := Int.ModEq.sum hentry
    _ = v k := by simp [hk]

/-- Undoing a product from its reduced entries gives a block of residues back. -/
theorem IsLeftInverseMod26.mod26_mulVec {n : Nat} {C B : Mat} (h : IsLeftInverseMod26 n C B) {u v : Nat → Int}
    (hu : ∀ c < n, u c = mod26 (mulVec n B v c)) {k : Nat} (hk : k < n) (h0 : 0 ≤ v k) (h1 : v k ≤ 25) :
    mod26 (mulVec n C u k) = v k :=
  calc
    mod26 (mulVec n C u k) = mod26 (mulVec n C (mulVec n B v) k) :=
      mulVec_modEq C (fun c hc => hu c hc ▸ mod26_modEq _) k
    _ = mod26 (v k) := h.mulVec_mulVec_modEq v hk
    _ = v k := mod26_of_range h0 h1

/-! ## A command on the block another command wrote -/

theorem res_word_toNat (x : Res) : (Res.word x).toNat = x.toNat :=
  BitVec.toNat_setWidth_of_le (by decide)

/-- The copy of 70_reset_and_hazards.md R199 gives the second command the result entries of the first. -/
theorem chained_vin_get (n : Nat) (t : State) {k : Fin 4} (hk : k.val < n) :
    Quad.get (chained n t).regs.vin k = Res.word (Quad.get t.regs.vout k) := by
  simp [chained, hk]

theorem chained_afterBlock_vecOperand (s : State) {n : Nat} (hn : n ≤ 4) (f : Nat → Int) {k : Nat} (hk : k < n) :
    vecOperand (chained n (afterBlock s n f)).regs k = mod26 (f k) := by
  have hentry := vecOperand_apply (chained n (afterBlock s n f)).regs ⟨k, by omega⟩
  rw [chained_vin_get n _ hk, res_word_toNat, afterBlock_vout_toNat s f hk] at hentry
  exact hentry

theorem chained_afterBlock_lettersOk (s : State) {n : Nat} (hn : n ≤ 4) (f : Nat → Int) :
    lettersOk (chained n (afterBlock s n f)).regs n :=
  (lettersOk_iff_vecOperand_le hn).2 fun _ hk => chained_afterBlock_vecOperand s hn f hk ▸ mod26_le _

/-- Two codec commands whose matrices have the identity as their product give the block back (42_block_codec.md
R144). Neither the first command nor the copy of its block changes the key, so the checks on it pass again. -/
theorem codec_roundTrip {i j : Instr} {B C : Nat → Mat → Mat} (hi : ∀ r, outcomeOf i r = codecOutcome r B)
    (hj : ∀ r, outcomeOf j r = codecOutcome r C) {s : State} {n : Nat} (hshape : shape s.regs n)
    (hunit : unitDet s.regs n) (hletters : lettersOk s.regs n)
    (hinverse : IsLeftInverseMod26 n (C n (keyOperand s.regs)) (B n (keyOperand s.regs))) :
    ∃ t u, exec i s = .next t ∧ t.regs.errcode = .noError ∧
      exec j (chained n t) = .next u ∧ u.regs.errcode = .noError ∧
      ∀ k : Fin 4, k.val < n → Res.word (Quad.get u.regs.vout k) = Quad.get s.regs.vin k := by
  have ⟨_, hn, _⟩ := hshape
  refine ⟨_, _, exec_codec (hi _) hshape hunit hletters, rfl,
    exec_codec (s := chained n _) (hj _) hshape hunit (chained_afterBlock_lettersOk s hn _), rfl, fun k hk => ?_⟩
  have hblock := hinverse.mod26_mulVec (fun c hc => chained_afterBlock_vecOperand s hn _ hc) hk
    (by rw [vecOperand_apply]; omega) ((lettersOk_iff_vecOperand_le hn).1 hletters k hk)
  refine BitVec.eq_of_toNat_eq ((res_word_toNat _).trans (Int.ofNat_inj.1 ?_))
  rw [← vecOperand_apply, ← hblock]
  exact afterBlock_vout_toNat _ _ hk

end Sys2Proof.Machine

namespace Sys2Proof.Proofs

open Sys2Proof.Machine Sys2Proof.Claims

/-- Settles O29: the key and its inverse matrix have the identity as their product on both sides. -/
theorem encryptionAndDecryptionInvertEachOther : Obligations.EncryptionAndDecryptionInvertEachOther := by
  intro s n hshape hunit hletters
  have ⟨h2, _⟩ := hshape
  have hn : 1 ≤ n := by omega
  have hkey := (unitDet_iff_keyInvertible s.regs n).1 hunit
  exact ⟨
    codec_roundTrip outcomeOf_enc outcomeOf_dec hshape hunit hletters (isLeftInverseMod26_invMat_key hn hkey),
    codec_roundTrip outcomeOf_dec outcomeOf_enc hshape hunit hletters (isLeftInverseMod26_key_invMat hn hkey)⟩

end Sys2Proof.Proofs

namespace Sys2Proof.Machine

open Sys2Proof.Claims

/-! ## The code a completion ends with -/

/-- The ERRCODE of an outcome: NONE on a success, else the error's own code (40_command_lifecycle.md R94, R95). -/
def outcomeCode : Except ErrCode Result → ErrCode
  | .ok _ => .noError
  | .error e => e

@[simp] theorem Regs.commit_errcode (r : Regs) (o : Except ErrCode Result) : (r.commit o).errcode = outcomeCode o := by
  cases o with
  | ok w => exact r.succeed_errcode w
  | error e => rfl

/-- A command ends with a code in some state exactly where its outcome on some registers has that code. -/
theorem exists_exec_errcode_iff (i : Instr) (e : ErrCode) :
    (∃ s t, exec i s = .next t ∧ t.regs.errcode = e) ↔ ∃ r, outcomeCode (outcomeOf i r) = e := by
  constructor
  · rintro ⟨s, t, h, rfl⟩
    obtain rfl := Host.Outcome.next.inj ((exec_eq_commit i s).symm.trans h)
    exact ⟨s.regs, (Regs.commit_errcode ..).symm⟩
  · rintro ⟨r, rfl⟩
    exact ⟨{ State.reset with regs := r }, _, exec_eq_commit i _, Regs.commit_errcode ..⟩

/-! ## The codes of each command's failures -/

theorem codecKey_error {r : Regs} {e : ErrCode} (h : codecKey r = .error e) :
    e = .keyDim ∨ e = .keyNonsquare ∨ e = .keyNotInvertible := by
  unfold codecKey at h
  split at h
  · next hshape =>
    cases h
    exact (keyShape_error r e hshape).imp_right .inl
  · split_ifs at h
    cases h
    exact .inr (.inr rfl)

/-- The codec's errors are those of its two checks (42_block_codec.md R140, R141). -/
theorem codecOutcome_error {r : Regs} {B : Nat → Mat → Mat} {e : ErrCode} (h : codecOutcome r B = .error e) :
    e = .keyDim ∨ e = .keyNonsquare ∨ e = .keyNotInvertible ∨ e = .invalidInput := by
  unfold codecOutcome at h
  split at h
  · next hkey =>
    cases h
    exact (codecKey_error hkey).imp_right (Or.imp_right .inl)
  · split at h
    · next hcheck =>
      cases h
      exact .inr (.inr (.inr (inputCheck_error _ _ _ hcheck)))
    · cases h

/-- A command's failure has a code of the command's row (60_exceptions.md R162). -/
theorem outcomeOf_error_mem_endsWith {i : Instr} {r : Regs} {e : ErrCode} (h : outcomeOf i r = .error e) :
    e ∈ endsWith i := by
  cases i with
  | nop => cases h
  | det | adj =>
    simp only [outcomeOf, detOutcome, adjOutcome] at h
    split at h <;> cases h
    next hshape => rcases keyShape_error r e hshape with rfl | rfl <;> decide
  | modinv =>
    simp only [outcomeOf, modinvOutcome] at h
    split_ifs at h
    cases h
    decide
  | inv =>
    simp only [outcomeOf, invOutcome] at h
    split at h
    · next hshape =>
      cases h
      rcases keyShape_error r e hshape with rfl | rfl <;> decide
    · split_ifs at h
      cases h
      decide
  | check =>
    simp only [outcomeOf, checkOutcome] at h
    split_ifs at h
  | enc => rcases codecOutcome_error (B := fun _ A => A) h with rfl | rfl | rfl | rfl <;> decide
  | dec => rcases codecOutcome_error (B := invMat) h with rfl | rfl | rfl | rfl <;> decide

theorem noError_mem_endsWith (i : Instr) : .noError ∈ endsWith i := by
  cases i <;> decide

/-- A command ends only with a code of its row (R162). -/
theorem outcomeCode_mem_endsWith (i : Instr) (r : Regs) : outcomeCode (outcomeOf i r) ∈ endsWith i := by
  cases ho : outcomeOf i r with
  | ok w => exact noError_mem_endsWith i
  | error e => exact outcomeOf_error_mem_endsWith ho

/-! ## A state for each code -/

/-- The reset registers with a 2×2 identity key, the operand 1 for MODINV and a block with the first entry `v`. -/
def identityKeyRegs (v : Word) : Regs :=
  { Regs.reset with
    krows := 2, kcols := 2, scalarIn := 1, vin := ⟨v, 0, 0, 0⟩
    key := ⟨⟨1, 0, 0, 0⟩, ⟨0, 1, 0, 0⟩, ⟨0, 0, 0, 0⟩, ⟨0, 0, 0, 0⟩⟩ }

/-- Registers on which every command with the code in its row ends with it: the dimension 0 of reset, a 2×3 shape, a
zero key and a zero operand of MODINV, a block entry that is no letter, and none of these. No row has ILLEGAL_CMD. -/
def regsEndingWith : ErrCode → Regs
  | .noError => identityKeyRegs 0
  | .illegalCmd | .keyDim => Regs.reset
  | .keyNonsquare => { Regs.reset with krows := 2, kcols := 3 }
  | .notInvertible | .keyNotInvertible => { Regs.reset with krows := 2, kcols := 2 }
  | .invalidInput => identityKeyRegs 26

/-- A command ends with every code of its row (R162). -/
theorem outcomeCode_regsEndingWith (i : Instr) :
    ∀ e ∈ endsWith i, outcomeCode (outcomeOf i (regsEndingWith e)) = e := by
  cases i <;> decide +kernel

/-! ## IRQ -/

/-- A step at the command unit's scheduled turn commits the outcome of the command in flight
(40_command_lifecycle.md R93). -/
theorem step_of_unitScheduled {s : State} {rest : List Turn} (h : unitScheduled s rest) :
    step s = .next { s with schedule := rest, regs := s.regs.commit (pendingOutcome s.regs) } := by
  obtain ⟨hrst, hbusy, hsched⟩ := h
  rw [step_of_completesNext ⟨hrst, hbusy, .inl hsched⟩]
  exact unitTurn_eq_commit (s := { s with schedule := rest }) hrst hbusy

/-- IRQ after a completion is IE: DONE rises and no completion writes CTRL (60_exceptions.md R167). -/
@[simp] theorem Regs.commit_irq (r : Regs) (o : Except ErrCode Result) : (r.commit o).irq = r.ie := by
  rw [Regs.irq, Regs.commit_done, ← (sameOperands_commit r o).ie, Bool.true_and]

@[simp] theorem Regs.accept_irq (r : Regs) (w : Word) : (r.accept w).irq = false := rfl

theorem Regs.clearStatus_irq (r : Regs) (v : Word) : (r.clearStatus v).irq = (r.irq && !v.getLsbD 1) := by
  simp only [Regs.irq, clearStatus_done, clearStatus_ie, Bool.and_right_comm]

theorem Regs.setCtrl_irq (r : Regs) (v : Word) : (r.setCtrl v).irq = (r.done && v.getLsbD 8) := rfl

/-- Bit [8] of CTRL is IE (10_state.md R23). -/
theorem ctrlBits_ie (k l : BitVec 3) (e : Bool) : (ctrlBits k l e).getLsbD 8 = e := by
  obtain ⟨-, -, hie, -⟩ := ctrlBits_fields k l e
  exact hie

theorem access_write_ctrl_idle {r : Regs} (hidle : r.busy = false) (v : Word) :
    access r (.write 0x008 4 v) = (.written, r.setCtrl v) :=
  access_write_idle (g := .ctrl) hidle rfl v

end Sys2Proof.Machine

namespace Sys2Proof.Proofs

open Sys2Proof.Machine Sys2Proof.Claims

/-- Settles O11: a command's outcome has a code of its row, and each code of the row has the registers
`regsEndingWith` gives; an illegal word is O7's. -/
theorem commandsEndWithTheListedCodes : Obligations.CommandsEndWithTheListedCodes := by
  refine ⟨fun i e => ?_, fun s t rest hnext hillegal h => ?_⟩
  · rw [exists_exec_errcode_iff]
    constructor
    · exact fun he => ⟨regsEndingWith e, outcomeCode_regsEndingWith i e he⟩
    · rintro ⟨r, rfl⟩
      exact outcomeCode_mem_endsWith i r
  · obtain ⟨-, hfails⟩ := illegalWordsAreAcceptedAndFail
    obtain rfl := Host.Outcome.next.inj ((hfails s rest hnext hillegal).symm.trans h)
    rfl

/-- Settles O35: each event of the rule is one update of the registers, whose IRQ is known. -/
theorem interruptIsDoneAndEnabled : Obligations.InterruptIsDoneAndEnabled := by
  refine ⟨fun r => ?_, fun s t rest hnext h => ?_, fun r v hclear => ?_, fun r w hidle => ?_,
    fun r v hidle hmask => ?_, rfl⟩
  · rw [readReg_status, statusBits_done, readReg_ctrl, ctrlBits_ie, Regs.irq]
  · obtain rfl := Host.Outcome.next.inj ((step_of_unitScheduled hnext).symm.trans h)
    exact Regs.commit_irq ..
  · rw [access_write_status, Regs.clearStatus_irq, hclear, Bool.not_true, Bool.and_false]
  · have hwrite : access r (.write 0x010 4 w) = (.written, r.accept w) := access_write_cmd_idle hidle w
    rw [hwrite, Regs.accept_irq]
  · rw [access_write_ctrl_idle hidle, Regs.setCtrl_irq, hmask, Bool.and_false]
    exact ⟨rfl, Regs.setCtrl_done r v⟩

end Sys2Proof.Proofs

namespace Sys2Proof.Machine

open Sys2Proof.Claims

/-! ## RST -/

theorem takeTurn_assertRst (s : State) :
    takeTurn .assertRst s = .next { s with rst := true, regs := Regs.reset } := rfl

theorem takeTurn_releaseRst_of_asserted {s : State} (h : s.rst = true) :
    takeTurn .releaseRst s = .next { s with rst := false, regs := Regs.reset } := by
  rw [takeTurn, if_pos h]
  rfl

/-- While RST is asserted the command unit completes nothing: the registers are held at reset
(70_reset_and_hazards.md R190). -/
theorem unitTurn_of_asserted {s : State} (h : s.rst = true) : unitTurn s = .next { s with regs := Regs.reset } :=
  if_pos h

/-- While RST is asserted an access of the host is stuck (R190; log entry 9). -/
theorem hostTurn_of_asserted {s : State} (h : s.rst = true) (hscript : s.script ≠ []) :
    hostTurn s = .fault .accessInReset := by
  obtain ⟨op, rest, hop⟩ := List.exists_cons_of_ne_nil hscript
  simp [hostTurn, hop, h]

/-! ## The registers at reset -/

/-- The reset record reads 0 wherever the map has no constant (70_reset_and_hazards.md R191). -/
theorem readReg_reset {g : Reg} (hid : g ≠ .id) (hparam : g ≠ .param) : readReg Regs.reset g = 0 := by
  cases g with
  | id => exact absurd rfl hid
  | param => exact absurd rfl hparam
  | ctrl | status | cmd | det | scalarIn | scalarOut => decide
  | key i j | adj i j | inv i j => revert i j; decide
  | vin k | vout k => revert k; decide

/-! ## CTRL as reset leaves it -/

/-- With CTRL = 0 the dimension is out of range (70_reset_and_hazards.md R193). -/
theorem dimBad_of_ctrl_zero {r : Regs} (h : readReg r .ctrl = 0) : dimBad r := by
  obtain ⟨-, -, -, hzero⟩ := ctrlBits_fields r.krows r.kcols r.ie
  obtain ⟨hrows, -⟩ := hzero h
  simp [dimBad, hrows]

theorem not_shape_of_dimBad {r : Regs} (h : dimBad r) (n : Nat) : ¬shape r n := by
  rw [← keyShape_ok_iff_shape, keyShape_of_dimBad h]
  exact nofun

/-- The commands that need a key shape pass on its error (40_command_lifecycle.md R97). -/
theorem outcomeOf_of_keyShape_error {i : Instr} (hi : i ∈ [Instr.det, .adj, .inv, .enc, .dec]) {r : Regs}
    {e : ErrCode} (h : keyShape r = .error e) : outcomeOf i r = .error e := by
  cases i with
  | nop | modinv | check => simp at hi
  | det => exact detOutcome_error h
  | adj => exact adjOutcome_error h
  | inv => exact invOutcome_error h
  | enc => exact codecOutcome_of_keyShape_error (B := fun _ A => A) h
  | dec => exact codecOutcome_of_keyShape_error (B := invMat) h

theorem not_isUnit_mod26_zero : ¬isUnit (mod26 (0 : Word).toInt) = true := by decide

/-! ## A read beside the completion -/

/-- The host's scheduled read of a register answers its value and changes no register (20_memory.md R56). -/
theorem step_of_read_scheduled {s : State} {g : Reg} {rest : List HostOp} {turns : List Turn} (hrst : s.rst = false)
    (hscript : s.script = .access (.read g.off 4) :: rest) (hsched : s.schedule = .host :: turns) :
    step s = .next { s with resp := some (.data (readReg s.regs g)), script := rest, schedule := turns } := by
  have hnext : hostNext s (.access (.read g.off 4)) :=
    ⟨hrst, by rw [hscript, List.head?_cons], .inl (by rw [hsched, List.head?_cons])⟩
  rw [step_of_hostNext hnext, runHostOp, access_read_off, hscript, hsched, List.tail_cons, List.tail_cons]

end Sys2Proof.Machine

namespace Sys2Proof.Proofs

open Sys2Proof.Machine Sys2Proof.Claims

/-- Settles O39: each turn of the pulse is the scheduled one, and what it does under RST is known. -/
theorem resetAbandonsTheCommandInFlight : Obligations.ResetAbandonsTheCommandInFlight := by
  intro s rest
  have hstep (turn : Turn) (hsched : s.schedule = turn :: rest) := step_scheduled s turn rest hsched
  exact ⟨fun hsched => (hstep _ hsched).trans (takeTurn_assertRst _),
    fun hrst hsched => (hstep _ hsched).trans (takeTurn_releaseRst_of_asserted hrst),
    fun hrst hsched => (hstep _ hsched).trans (unitTurn_of_asserted hrst),
    fun hrst hsched hscript => (hstep _ hsched).trans (hostTurn_of_asserted hrst hscript)⟩

/-- Settles O49: a read answers the registers it meets, those in flight before the completion step and those the
completion committed after it. -/
theorem earlyReadsSeeOldResultsLateReadsNew : Obligations.EarlyReadsSeeOldResultsLateReadsNew := by
  intro s u g rest hrst hbusy hscript hu
  have hunit (turns : List Turn) := step_of_unitScheduled (s := { s with schedule := .unit :: turns })
    ⟨hrst, hbusy, rfl⟩
  obtain rfl := Host.Outcome.next.inj ((run_next (hunit [])).symm.trans hu)
  have hearly := step_of_read_scheduled (s := { s with schedule := [.host] }) hrst hscript rfl
  have hlate := step_of_read_scheduled
    (s := { s with schedule := [.host], regs := s.regs.commit (pendingOutcome s.regs) }) hrst hscript rfl
  exact ⟨⟨_, run_next hearly, rfl, rfl, rfl⟩, ⟨_, (run_next (hunit [.host])).trans (run_next hlate), rfl, rfl, rfl⟩⟩

/-- Settles O38: ID and PARAM are constants, and `readReg_reset` has the rest of the map. -/
theorem resetRegistersReadAsListed : Obligations.ResetRegistersReadAsListed :=
  ⟨rfl, rfl, fun _ => readReg_reset, rfl, rfl⟩

/-- Settles O40: CTRL = 0 gives a dimension out of range, and 0 is no unit. -/
theorem keyCommandsFailUntilCtrlIsWritten : Obligations.KeyCommandsFailUntilCtrlIsWritten := by
  intro s hctrl
  have hdim := dimBad_of_ctrl_zero hctrl
  obtain ⟨-, hnop⟩ := nopOnlyCompletes
  refine ⟨fun i hi => failsWith_of_outcomeOf (outcomeOf_of_keyShape_error hi (keyShape_of_dimBad hdim)),
    exec_of_outcomeOf_ok (i := .check) (checkOutcome_of_no_shape (not_shape_of_dimBad hdim)),
    fun hscalar => failsWith_of_outcomeOf (modinvOutcome_not_invertible ?_), hnop s⟩
  rw [hscalar]
  exact not_isUnit_mod26_zero

/-- Settles O42: the reset record has the registers' invariant, and is what a held reset asks for. -/
theorem resetResultsAreInRange : Obligations.ResetResultsAreInRange :=
  ⟨Regs.inv_reset, fun _ => rfl⟩

end Sys2Proof.Proofs
